-- ==== Sys2Proof/Word.lean ====
section
/-! DEFINITION. The word types of the display serializer block (00_scope.md rule R10: every value is unsigned, bit 0 is
the least significant bit, a byte is 8 bits). -/

namespace Sys2Proof

/-- A byte (R10). -/
abbrev Byte := BitVec 8

/-- One slot of the pixel buffer: a packed pixel in a 32-bit container (R22, R56). -/
abbrev Pixel := BitVec 32

/-- A request word (R43). -/
abbrev RequestWord := BitVec 64

/-- `zeros(n)`: the list of n bytes of value 0 (R10). -/
abbrev zeros (n : Nat) : List Byte := List.replicate n 0#8

end Sys2Proof
end

