-- ==== Sys2Proof/Config.lean ====
section
/-! DEFINITION. What is fixed for one machine: the constants of 00_scope.md rule R7, the open parameters of rule R8 as the
fields of `Config`, and the constant without a body that stands for the chip-select lines after a bus failure. -/

namespace Sys2Proof

/-- COLS (R7). -/
abbrev cols : Nat := 17
/-- ROWS (R7). -/
abbrev rows : Nat := 7
/-- PIXEL_COUNT = COLS × ROWS (R7). The types `Vector Pixel 119` and `Fin 119` write the number out. -/
abbrev pixelCount : Nat := 119
/-- LUT_LEN = 3 × PIXEL_COUNT (R7). -/
abbrev lutLen : Nat := 357
/-- MAX_BRIGHTNESS (R7). -/
abbrev maxBrightness : Nat := 63

/-- BIT_ORDER (R8, D18): the order of the bits of a byte on the wire. No rule reads it. -/
inductive BitOrder where
  | msbFirst
  | lsbFirst
  deriving DecidableEq, Repr, Inhabited

/-- CS_POLARITY (R8, D18): the level of an asserted chip-select line. No rule reads it. -/
inductive Polarity where
  | activeLow
  | activeHigh
  deriving DecidableEq, Repr, Inhabited

/-- The transport parameters of R8. No rule of the DSB reads them (D18). -/
structure Transport where
  bitOrder   : BitOrder
  busMode    : Nat
  clockHz    : Nat
  csPolarity : Polarity
  deriving DecidableEq, Repr, Inhabited

/-- A configuration: the open parameters of R8, one field each. -/
structure Config where
  /-- SPLIT: pixels of panel 0. -/
  split          : Nat
  /-- FRAME_BYTES: bytes of one panel's frame. -/
  frameBytes     : Nat
  /-- LUT: the transfer frame table. -/
  lut            : Vector Byte 357
  /-- WD_ADDR: second byte of the display-write header. -/
  wdAddr         : Byte
  /-- INIT_BRIGHTNESS. -/
  initBrightness : Byte
  pSoftReset     : List Byte
  pScrollOff     : List Byte
  pSysOff        : List Byte
  pSysOn         : List Byte
  pComOn         : List Byte
  pRowOn         : List Byte
  pComOff        : List Byte
  pRowOff        : List Byte
  transport      : Transport
  deriving DecidableEq, Repr, Inhabited

/-- The free values of the chip-select lines after a bus failure (R87: "a model draws its value"), one for each number
drawn. DESIGN CHOICE: no body (log entry 5). -/
opaque Config.freeLine : Nat → Bool

end Sys2Proof
end

