-- ==== Sys2Proof/Syntax.lean ====
section
/-! DEFINITION. The instructions: one constructor for each row of spec/opcode_table.json. The first eight are the requests
of 30_encoding.md rule R46, the other eight the bus commands of rule R49. -/

namespace Sys2Proof

/-- The two panels, numbered as the chip-select lines that serve them (R69, D34). -/
inductive Panel where
  | panel0
  | panel1
  deriving DecidableEq, Repr, Inhabited

/-- The bus commands of R49. -/
inductive Command where
  | softReset
  | globalBrightness
  | comPinCtrl
  | rowPinCtrl
  | writeDisplay
  | readDisplay
  | systemCtrl
  | scrollCtrl
  deriving DecidableEq, Repr

/-- A request with its operands (R44, R45), or one transaction of the frame transmitter with its panel and the bytes that
follow the command byte (R50, R77, R78). -/
inductive Instr where
  /-- SET_PIXEL x, y, r, g, b (R59). -/
  | setPixel (x y r g b : Byte)
  /-- SET_ALL r, g, b (R60). -/
  | setAll (r g b : Byte)
  /-- CLEAR (R61). -/
  | clear
  /-- SET_ROTATION deg (R66). -/
  | setRotation (deg : BitVec 16)
  /-- GET_SHAPE (R68). -/
  | getShape
  /-- SET_BRIGHTNESS code (R80). -/
  | setBrightness (code : Byte)
  /-- SHOW (R73). -/
  | showFrame
  /-- SHUTDOWN (R81). -/
  | shutdown
  /-- XFER(p, CMD_SOFT_RESET, data) (R77). -/
  | cmdSoftReset (p : Panel) (data : List Byte)
  /-- XFER(p, CMD_GLOBAL_BRIGHTNESS, data) (R77). -/
  | cmdGlobalBrightness (p : Panel) (data : List Byte)
  /-- XFER(p, CMD_COM_PIN_CTRL, data) (R77). -/
  | cmdComPinCtrl (p : Panel) (data : List Byte)
  /-- XFER(p, CMD_ROW_PIN_CTRL, data) (R77). -/
  | cmdRowPinCtrl (p : Panel) (data : List Byte)
  /-- The display-write transaction: the header byte after 0x80 and the frame (R78). -/
  | cmdWriteDisplay (p : Panel) (addr : Byte) (frame : List Byte)
  /-- CMD_READ_DISPLAY, defined and never sent (R51). -/
  | cmdReadDisplay (p : Panel) (data : List Byte)
  /-- XFER(p, CMD_SYSTEM_CTRL, data) (R77). -/
  | cmdSystemCtrl (p : Panel) (data : List Byte)
  /-- XFER(p, CMD_SCROLL_CTRL, data) (R77). -/
  | cmdScrollCtrl (p : Panel) (data : List Byte)
  deriving DecidableEq, Repr

end Sys2Proof
end

