-- ==== Sys2Proof/WellFormed.lean ====
section
/-! DEFINITION. The checks: a well-formed configuration (00_scope.md rule R9), the configurations a machine can be built
from, and a well-formed instruction under a configuration (every request word's operands fit their fields by type; a bus command is one of the transactions of
30_encoding.md rule R50). -/

namespace Sys2Proof

/-- R9 (a): 0 < SPLIT < 119. -/
def Config.splitLegal (c : Config) : Bool := decide (0 < c.split ∧ c.split < 119)

/-- R9 (b): FRAME_BYTES ≥ 1. -/
def Config.frameLegal (c : Config) : Bool := decide (1 ≤ c.frameBytes)

/-- R9 (c): every LUT entry is below FRAME_BYTES (3·i + c runs over 0..356). -/
def Config.lutInFrame (c : Config) : Bool := c.lut.toList.all fun b => decide (b.toNat < c.frameBytes)

/-- R9 (d): the bytes of each panel's run are pairwise distinct. -/
def Config.runsDistinct (c : Config) : Bool :=
  decide (c.lut.toList.take (3 * c.split)).Nodup && decide (c.lut.toList.drop (3 * c.split)).Nodup

/-- R9 (e): INIT_BRIGHTNESS ≤ 63. -/
def Config.brightnessLegal (c : Config) : Bool := decide (c.initBrightness.toNat ≤ maxBrightness)

/-- R9: a well-formed configuration. -/
def Config.wellFormed (c : Config) : Bool :=
  c.splitLegal && c.frameLegal && c.lutInFrame && c.runsDistinct && c.brightnessLegal

/-! ## What a machine is built from -/

/-- A configuration that passes every check of R9. A machine holds one of these, so no machine is built from any other
configuration (R9, R71). -/
structure WellFormedConfig where
  config     : Config
  wellFormed : config.wellFormed = true
  deriving DecidableEq, Repr

/-- Bytes of distinct values below 256 are distinct. -/
theorem bytes_nodup {n : Nat} {f : Nat → Nat} (hf : ∀ k, k < n → f k < 256)
    (hinj : ∀ j k, j < n → k < n → f j = f k → j = k) :
    ((List.range n).map fun k => BitVec.ofNat 8 (f k)).Nodup := by
  refine List.Nodup.map_on ?_ List.nodup_range
  intro j hj k hk h
  rw [List.mem_range] at hj hk
  have := congrArg BitVec.toNat h
  simp only [BitVec.toNat_ofNat] at this
  exact hinj j k hj hk (by have := hf j hj; have := hf k hk; omega)

/-- Check (d) of R9 for a table given as its two runs. -/
theorem runsDistinct_of_runs {c : Config} {r0 r1 : List Byte} (ht : c.lut.toList = r0 ++ r1)
    (hl : r0.length = 3 * c.split) (h0 : r0.Nodup) (h1 : r1.Nodup) : c.runsDistinct = true := by
  simp only [Config.runsDistinct, ht, Bool.and_eq_true, decide_eq_true_eq]
  exact ⟨by rwa [List.take_left' hl], by rwa [List.drop_left' hl]⟩

/-- Two runs of 180 and 177 ascending bytes. -/
def Config.sampleTable : List Byte :=
  (List.range 180).map (BitVec.ofNat 8) ++ (List.range 177).map (BitVec.ofNat 8)

/-- Some configuration that passes the checks. It is here only because a constant without a body needs a type that is known
to be inhabited; no machine is built from it. -/
def Config.sample : Config where
  split          := 60
  frameBytes     := 180
  lut            := ⟨Config.sampleTable.toArray, by simp [Config.sampleTable]⟩
  wdAddr         := 0#8
  initBrightness := 0#8
  pSoftReset     := []
  pScrollOff     := []
  pSysOff        := []
  pSysOn         := []
  pComOn         := []
  pRowOn         := []
  pComOff        := []
  pRowOff        := []
  transport      := default

theorem Config.sample_wellFormed : Config.sample.wellFormed = true := by
  have hr : Config.sample.runsDistinct = true :=
    runsDistinct_of_runs (r0 := (List.range 180).map (BitVec.ofNat 8)) (r1 := (List.range 177).map (BitVec.ofNat 8))
      rfl (by simp [Config.sample]) (bytes_nodup (f := id) (by simp; omega) (by simp))
      (bytes_nodup (f := id) (by simp; omega) (by simp))
  have hl : Config.sample.lutInFrame = true := by decide +kernel
  simp only [Config.wellFormed, hr, hl]
  decide

/-- Some well-formed configuration. DESIGN CHOICE: it has no body, so nothing can be proved of its values but that they pass
the checks (R8: "A model must not build it in as a constant"; log entry 1). -/
opaque Config.choose [Inhabited WellFormedConfig] : WellFormedConfig

/-- The configuration `State.reset` is built from (log entry 1). -/
def Config.hw : WellFormedConfig := @Config.choose ⟨⟨Config.sample, Config.sample_wellFormed⟩⟩

/-! ## Instructions -/

/-- The data of a set-brightness transaction: one byte b ≤ 63 (R50). -/
def brightnessData : List Byte → Bool
  | [b] => decide (b.toNat ≤ maxBrightness)
  | _ => false

/-- A well-formed instruction. A request's operands fit their fields by their types (R44; a value outside the legal range
is an operand too, which the DSB checks, R53). A bus command is one of the transactions of R50, so a read-display is none
(R51). -/
def Instr.wellFormed (c : Config) : Instr → Bool
  | .setPixel _ _ _ _ _ => true
  | .setAll _ _ _ => true
  | .clear => true
  | .setRotation _ => true
  | .getShape => true
  | .setBrightness _ => true
  | .showFrame => true
  | .shutdown => true
  | .cmdSoftReset _ data => decide (data = c.pSoftReset)
  | .cmdGlobalBrightness _ data => brightnessData data
  | .cmdComPinCtrl _ data => decide (data = c.pComOn ∨ data = c.pComOff)
  | .cmdRowPinCtrl _ data => decide (data = c.pRowOn ∨ data = c.pRowOff)
  | .cmdWriteDisplay _ addr frame => decide (addr = c.wdAddr ∧ frame.length = c.frameBytes)
  | .cmdReadDisplay _ _ => false
  | .cmdSystemCtrl _ data => decide (data = c.pSysOn ∨ data = c.pSysOff)
  | .cmdScrollCtrl _ data => decide (data = c.pScrollOff)

end Sys2Proof
end

