-- ==== Sys2Proof/Decode.lean ====
section
/-! DEFINITION. Decoding and encoding: request words by 30_encoding.md rules R43 to R47, bus transactions by rules R49 to
R52. The decoder is total and names its reason where it rejects. -/

namespace Sys2Proof

/-- What a decoder is given: a request word (R43), or the bytes of one transaction to a panel (R52). -/
inductive Fetch where
  | request (w : RequestWord)
  | transfer (p : Panel) (bytes : List Byte)
  deriving DecidableEq, Repr

/-- Why a word or a transaction is no instruction. -/
inductive Reject where
  /-- The opcode field is not in the map (R47). -/
  | unknownOpcode (opc : Byte)
  /-- A reserved bit of the format is 1 (R47). -/
  | reservedBits (opc : Byte)
  /-- A transaction holds at least one byte (R25). -/
  | emptyTransaction
  /-- The first byte is no command byte of R49 (R51). -/
  | unknownCommand (cmd : Byte)
  /-- A display write has a 2-byte header (R50). -/
  | noHeaderByte
  deriving DecidableEq, Repr

/-! ## Request words -/

/-- `w[lo + n - 1 : lo]` (R10). -/
def field (n lo : Nat) (w : RequestWord) : BitVec n := w.extractLsb' lo n

/-- OPC = w[63:56] (R43). -/
def opcField (w : RequestWord) : Byte := field 8 56 w
/-- X = w[55:48] (R45). -/
def xField (w : RequestWord) : Byte := field 8 48 w
/-- Y = w[47:40] (R45). -/
def yField (w : RequestWord) : Byte := field 8 40 w
/-- R = w[23:16] (R45). -/
def rField (w : RequestWord) : Byte := field 8 16 w
/-- G = w[15:8] (R45). -/
def gField (w : RequestWord) : Byte := field 8 8 w
/-- B = w[7:0] (R45). -/
def bField (w : RequestWord) : Byte := field 8 0 w
/-- DEG = w[15:0] (R45). -/
def degField (w : RequestWord) : BitVec 16 := field 16 0 w
/-- CODE = w[7:0] (R45). -/
def codeField (w : RequestWord) : Byte := field 8 0 w

/-- The five request formats of R44. -/
inductive Format where
  | n
  | px
  | cl
  | rt
  | br
  deriving DecidableEq, Repr

/-- The bits a format reserves, which must be 0 (R44). -/
def Format.reserved : Format → RequestWord
  | .n  => 0x00FFFFFFFFFFFFFF#64
  | .px => 0x000000FFFF000000#64
  | .cl => 0x00FFFFFFFF000000#64
  | .rt => 0x00FFFFFFFFFF0000#64
  | .br => 0x00FFFFFFFFFFFF00#64

/-- The check of a format's reserved bits (R43, R47). -/
def checkReserved (f : Format) (w : RequestWord) (i : Instr) : Except Reject Instr :=
  if w &&& f.reserved = 0#64 then .ok i else .error (.reservedBits (opcField w))

/-- Decode a request word: read OPC, look it up, check the format's reserved bits (R43, R46, R47). -/
def decodeRequest (w : RequestWord) : Except Reject Instr :=
  if opcField w = 0x01#8 then checkReserved .px w (.setPixel (xField w) (yField w) (rField w) (gField w) (bField w))
  else if opcField w = 0x02#8 then checkReserved .cl w (.setAll (rField w) (gField w) (bField w))
  else if opcField w = 0x03#8 then checkReserved .n w .clear
  else if opcField w = 0x04#8 then checkReserved .rt w (.setRotation (degField w))
  else if opcField w = 0x05#8 then checkReserved .n w .getShape
  else if opcField w = 0x06#8 then checkReserved .br w (.setBrightness (codeField w))
  else if opcField w = 0x07#8 then checkReserved .n w .showFrame
  else if opcField w = 0x08#8 then checkReserved .n w .shutdown
  else .error (.unknownOpcode (opcField w))

/-! ## Bus transactions -/

/-- The command bytes of R49. -/
def Command.byte : Command → Byte
  | .softReset        => 0xCC#8
  | .globalBrightness => 0x37#8
  | .comPinCtrl       => 0x41#8
  | .rowPinCtrl       => 0x42#8
  | .writeDisplay     => 0x80#8
  | .readDisplay      => 0x81#8
  | .systemCtrl       => 0x35#8
  | .scrollCtrl       => 0x20#8

/-- The command a first byte names (R49). -/
def commandOf (b : Byte) : Option Command :=
  if b = 0xCC#8 then some .softReset
  else if b = 0x37#8 then some .globalBrightness
  else if b = 0x41#8 then some .comPinCtrl
  else if b = 0x42#8 then some .rowPinCtrl
  else if b = 0x80#8 then some .writeDisplay
  else if b = 0x81#8 then some .readDisplay
  else if b = 0x35#8 then some .systemCtrl
  else if b = 0x20#8 then some .scrollCtrl
  else none

/-- A command with the bytes after it: the command form, or the display-write form, whose next byte is the second byte of
the header (R50). -/
def decodeCommand (p : Panel) (data : List Byte) : Command → Except Reject Instr
  | .softReset        => .ok (.cmdSoftReset p data)
  | .globalBrightness => .ok (.cmdGlobalBrightness p data)
  | .comPinCtrl       => .ok (.cmdComPinCtrl p data)
  | .rowPinCtrl       => .ok (.cmdRowPinCtrl p data)
  | .writeDisplay     =>
    match data with
    | [] => .error .noHeaderByte
    | addr :: frame => .ok (.cmdWriteDisplay p addr frame)
  | .readDisplay      => .ok (.cmdReadDisplay p data)
  | .systemCtrl       => .ok (.cmdSystemCtrl p data)
  | .scrollCtrl       => .ok (.cmdScrollCtrl p data)

/-- Decode the bytes of one transaction (R50, R52). -/
def decodeTransfer (p : Panel) : List Byte → Except Reject Instr
  | [] => .error .emptyTransaction
  | b :: data =>
    match commandOf b with
    | none => .error (.unknownCommand b)
    | some cmd => decodeCommand p data cmd

/-- The decoder, total on every word and every list of bytes. -/
def decode : Fetch → Except Reject Instr
  | .request w => decodeRequest w
  | .transfer p bytes => decodeTransfer p bytes

/-! ## The encoder, from R44, R46 and R50 -/

/-- A field of a word with its least significant bit at bit `lo` (R44). -/
def place {n : Nat} (v : BitVec n) (lo : Nat) : RequestWord := v.setWidth 64 <<< lo

/-- The word of SET_PIXEL, format PX (R44, R46). -/
def wordSetPixel (x y r g b : Byte) : RequestWord :=
  place 0x01#8 56 ||| place x 48 ||| place y 40 ||| place r 16 ||| place g 8 ||| place b 0
/-- The word of SET_ALL, format CL. -/
def wordSetAll (r g b : Byte) : RequestWord := place 0x02#8 56 ||| place r 16 ||| place g 8 ||| place b 0
/-- The word of CLEAR, format N. -/
def wordClear : RequestWord := place 0x03#8 56
/-- The word of SET_ROTATION, format RT. -/
def wordSetRotation (deg : BitVec 16) : RequestWord := place 0x04#8 56 ||| place deg 0
/-- The word of GET_SHAPE, format N. -/
def wordGetShape : RequestWord := place 0x05#8 56
/-- The word of SET_BRIGHTNESS, format BR. -/
def wordSetBrightness (code : Byte) : RequestWord := place 0x06#8 56 ||| place code 0
/-- The word of SHOW, format N. -/
def wordShow : RequestWord := place 0x07#8 56
/-- The word of SHUTDOWN, format N. -/
def wordShutdown : RequestWord := place 0x08#8 56

/-- The bytes of the command form: the command byte, then the data (R50). -/
def commandBytes (cmd : Command) (data : List Byte) : List Byte := cmd.byte :: data

/-- The bytes of the display-write form: the 2-byte header, then the frame (R50). -/
def displayBytes (addr : Byte) (frame : List Byte) : List Byte := [Command.writeDisplay.byte, addr] ++ frame

/-- The encoder. -/
def encode : Instr → Fetch
  | .setPixel x y r g b => .request (wordSetPixel x y r g b)
  | .setAll r g b => .request (wordSetAll r g b)
  | .clear => .request wordClear
  | .setRotation deg => .request (wordSetRotation deg)
  | .getShape => .request wordGetShape
  | .setBrightness code => .request (wordSetBrightness code)
  | .showFrame => .request wordShow
  | .shutdown => .request wordShutdown
  | .cmdSoftReset p data => .transfer p (commandBytes .softReset data)
  | .cmdGlobalBrightness p data => .transfer p (commandBytes .globalBrightness data)
  | .cmdComPinCtrl p data => .transfer p (commandBytes .comPinCtrl data)
  | .cmdRowPinCtrl p data => .transfer p (commandBytes .rowPinCtrl data)
  | .cmdWriteDisplay p addr frame => .transfer p (displayBytes addr frame)
  | .cmdReadDisplay p data => .transfer p (commandBytes .readDisplay data)
  | .cmdSystemCtrl p data => .transfer p (commandBytes .systemCtrl data)
  | .cmdScrollCtrl p data => .transfer p (commandBytes .scrollCtrl data)

/-! ## The opcode table of R46, as data -/

/-- A row of the opcode map: a word decodes as it when (w & mask) = pattern (R46). -/
structure Row where
  opc     : Byte
  pattern : RequestWord
  mask    : RequestWord
  deriving DecidableEq, Repr

/-- The eight rows of R46. -/
def opcodeMap : List Row :=
  [ ⟨0x01#8, 0x0100000000000000#64, 0xFF0000FFFF000000#64⟩,
    ⟨0x02#8, 0x0200000000000000#64, 0xFFFFFFFFFF000000#64⟩,
    ⟨0x03#8, 0x0300000000000000#64, 0xFFFFFFFFFFFFFFFF#64⟩,
    ⟨0x04#8, 0x0400000000000000#64, 0xFFFFFFFFFFFF0000#64⟩,
    ⟨0x05#8, 0x0500000000000000#64, 0xFFFFFFFFFFFFFFFF#64⟩,
    ⟨0x06#8, 0x0600000000000000#64, 0xFFFFFFFFFFFFFF00#64⟩,
    ⟨0x07#8, 0x0700000000000000#64, 0xFFFFFFFFFFFFFFFF#64⟩,
    ⟨0x08#8, 0x0800000000000000#64, 0xFFFFFFFFFFFFFFFF#64⟩ ]

/-- (w & mask) = pattern (R46). -/
def Row.hits (r : Row) (w : RequestWord) : Bool := w &&& r.mask == r.pattern

/-! ## The opcode table's words -/

/-- The zero operand bytes that follow a command byte when the table's row is laid out: one data byte for
set-brightness, the header's second byte and one frame byte for a display write, none elsewhere (log entry 9). -/
def zeroOperands (b : Byte) : List Byte :=
  if b = Command.globalBrightness.byte then [0#8]
  else if b = Command.writeDisplay.byte then [0#8, 0#8]
  else []

/-- A row of spec/opcode_table.json laid out: 64 bits are a request word, 8 bits the command byte of a transaction to
panel 0 with zero operands. -/
def tableFetch (nbits w : Nat) : Option Fetch :=
  if nbits = 64 then some (.request (BitVec.ofNat 64 w))
  else if nbits = 8 then some (.transfer .panel0 (BitVec.ofNat 8 w :: zeroOperands (BitVec.ofNat 8 w)))
  else none

/-- The instruction the decoder reads from a row's bits. -/
def decodeTableWord (nbits w : Nat) : Option Instr :=
  match tableFetch nbits w with
  | none => none
  | some f => (decode f).toOption

end Sys2Proof
end

