-- ==== Sys2Proof/Machine/Bus.lean ====
section
/-! DEFINITION. Transactions, and the two fixed lists of them: the reset sequence of 70_reset_and_hazards.md rule R96 and
the shutdown sequence of 43_transmitter.md rule R81. -/

namespace Sys2Proof.Machine

/-- A transaction (p, bytes): the panel whose chip-select framed it and the bytes written meanwhile (R25). -/
structure Transaction where
  panel : Panel
  bytes : List Byte
  deriving DecidableEq, Repr

/-- The transaction XFER(p, cmd, data) sends (R77). -/
def commandTransaction (p : Panel) (cmd : Command) (data : List Byte) : Transaction := ⟨p, commandBytes cmd data⟩

/-- The transaction XFER_WRITE_DISPLAY(p, frame) sends (R78). -/
def displayTransaction (c : Config) (p : Panel) (frame : List Byte) : Transaction := ⟨p, displayBytes c.wdAddr frame⟩

/-- The eight transfers of reset to one panel, in order (R96). -/
def panelReset (c : Config) (p : Panel) : List Transaction :=
  [ commandTransaction p .softReset c.pSoftReset,
    commandTransaction p .globalBrightness [c.initBrightness],
    commandTransaction p .scrollCtrl c.pScrollOff,
    commandTransaction p .systemCtrl c.pSysOff,
    displayTransaction c p (zeros c.frameBytes),
    commandTransaction p .comPinCtrl c.pComOn,
    commandTransaction p .rowPinCtrl c.pRowOn,
    commandTransaction p .systemCtrl c.pSysOn ]

/-- The 16 transfers of reset: panel 0 first, panel-major (R96, D22). -/
def resetSequence (c : Config) : List Transaction := panelReset c .panel0 ++ panelReset c .panel1

/-- The three transfers of SHUTDOWN to one panel, in order (R81). -/
def panelShutdown (c : Config) (p : Panel) : List Transaction :=
  [ commandTransaction p .comPinCtrl c.pComOff,
    commandTransaction p .rowPinCtrl c.pRowOff,
    commandTransaction p .systemCtrl c.pSysOff ]

/-- The six transfers of SHUTDOWN (R81, D24). -/
def shutdownSequence (c : Config) : List Transaction := panelShutdown c .panel0 ++ panelShutdown c .panel1

end Sys2Proof.Machine
end

