-- ==== Sys2Proof/Machine/State.lean ====
section
/-! DEFINITION. The state of the machine as plain data (10_state.md rule R17), the reasons a step can stop, the state at
power-on and the state right after reset (70_reset_and_hazards.md rules R96, R97). -/

namespace Sys2Proof.Machine

/-- ROT: the four rotations (R18). The 2-bit codes are `Rotation.code`. -/
inductive Rotation where
  | deg0
  | deg90
  | deg180
  | deg270
  deriving DecidableEq, Repr

/-- LIFE: the driver's lifecycle (R19). The codes are `Life.code`. -/
inductive Life where
  | uninit
  | active
  | shutdown
  deriving DecidableEq, Repr

/-- The causes of a fault (R83). The codes are `Cause.code`. -/
inductive Cause where
  | illegalRequest
  | coordRange
  | notActive
  | brightnessRange
  | busFailure
  deriving DecidableEq, Repr

/-- STATUS of a response (R48). -/
inductive Status where
  | ok
  | invalidRotation
  deriving DecidableEq, Repr

/-- CS[0] and CS[1] in logical terms: true is asserted (R24). -/
structure ChipSelect where
  line0 : Bool
  line1 : Bool
  deriving DecidableEq, Repr

/-- The transport's answer to one write (R75). -/
inductive WriteResult where
  | ok
  | fail
  deriving DecidableEq, Repr

/-- What the host does to the DSB: issue a request word (R3, R43) or reset it (R96). -/
inductive HostEvent where
  | request (w : RequestWord)
  | reset
  deriving DecidableEq, Repr

/-- PB, the pixel buffer: 119 slots of 32 bits, offsets 0 to 118 (R22, R30). -/
abbrev Memory := Vector Pixel 119

/-- The state. The first group is the spec's own (R17), the second the model's: the configuration the machine is built
with, the transfers of a running reset sequence, and the inputs and draws that come from outside (log entries 1 to 5). -/
structure State where
  /-- ROT (R18). -/
  rot        : Rotation
  /-- LIFE (R19). -/
  life       : Life
  /-- PBUF (R22). -/
  pbuf       : Memory
  /-- RESP (R20). -/
  resp       : BitVec 32
  /-- FAULT_CAUSE (R21). -/
  faultCause : BitVec 8
  /-- FAULT_REQ (R21). -/
  faultReq   : RequestWord
  /-- CS[0], CS[1] (R24). -/
  cs         : ChipSelect
  /-- TRACE, oldest first (R25). -/
  trace      : List Transaction
  /-- The configuration the machine was built from, which passed the checks of R9 and which no step writes (R9, R17,
  R41). -/
  built      : WellFormedConfig
  /-- What the reset sequence still has to send, next first (R15, R96). -/
  seq        : List Transaction
  /-- What the host does next, in issue order (R15, R38). -/
  host       : List HostEvent
  /-- The transport's answers to the next writes; a write beyond the list is answered ok (R75). -/
  answers    : List WriteResult
  /-- How many free chip-select values have been drawn (R87). -/
  draws      : Nat
  deriving DecidableEq, Repr

/-- The configuration's values. -/
abbrev State.cfg (s : State) : Config := s.built.config

/-- Why the machine stops. -/
inductive Fault where
  /-- Raised for a request (or a transfer) that is issued while FAULT_CAUSE ≠ 0: it has no step (R85, 93 I19). Safe: the
  spec gives the same stop. -/
  | dsbFaulted
  deriving DecidableEq, Repr

/-- Why an instruction or an event has no meaning. -/
inductive Refusal where
  /-- Raised by `exec` for an instruction that has no meaning yet. Safe. -/
  | notModelled (mnemonic : String)
  /-- Raised by `build`, the construction of a machine, for a configuration that fails rule R9: no machine is built from it
  (R12, R96). No step raises it: a state holds a well-formed configuration. Safe: the spec refuses it too. -/
  | illFormedConfig
  /-- Raised by a CMD_READ_DISPLAY transaction, which is defined and never sent (R51). Safe: no run of the DSB sends one. -/
  | readDisplayNeverSent
  /-- Raised by a transfer in the sequencer whose bytes are no transaction of R50. Safe: the reset sequence holds none. -/
  | noTransaction (why : Reject)
  deriving DecidableEq, Repr

/-- Both chip-select lines deasserted (R24). -/
def ChipSelect.idle : ChipSelect := ⟨false, false⟩

/-- The state when a reset with configuration `c` has completed, TRACE having held `earlier` (R97). -/
def State.afterReset (c : WellFormedConfig) (earlier : List Transaction) : State where
  rot        := .deg0
  life       := .active
  pbuf       := Vector.replicate 119 0#32
  resp       := 0#32
  faultCause := 0#8
  faultReq   := 0#64
  cs         := .idle
  trace      := earlier ++ resetSequence c.config
  built      := c
  seq        := []
  host       := []
  answers    := []
  draws      := 0

/-- Power-on with configuration `c`: TRACE is empty and the host's first event is the reset that starts the DSB (R25,
R96: "It is the only way to start the DSB"). The registers hold the values the reset will write. DESIGN CHOICE (log
entry 7). -/
def State.powerOn (c : WellFormedConfig) : State :=
  { State.afterReset c [] with life := .uninit, trace := [], host := [.reset] }

/-- The machine right after the first reset (R97), built from the well-formed configuration no source gives. -/
def State.reset : State := State.afterReset Config.hw []

end Sys2Proof.Machine
end

