-- ==== Sys2Proof/Machine/Flags.lean ====
section
/-! DEFINITION. The DSB has no flags (10_state.md rule R16). Its status values stand here: the codes of ROT, LIFE and
FAULT_CAUSE, and the response word. -/

namespace Sys2Proof.Machine

/-- The 2-bit code of ROT (R18). -/
def Rotation.code : Rotation → BitVec 2
  | .deg0   => 0#2
  | .deg90  => 1#2
  | .deg180 => 2#2
  | .deg270 => 3#2

/-- The 2-bit code of LIFE (R19); code 3 is never stored. -/
def Life.code : Life → BitVec 2
  | .uninit   => 0#2
  | .active   => 1#2
  | .shutdown => 2#2

/-- The code FAULT_CAUSE holds (R83). -/
def Cause.code : Cause → BitVec 8
  | .illegalRequest  => 0x01#8
  | .coordRange      => 0x02#8
  | .notActive       => 0x03#8
  | .brightnessRange => 0x04#8
  | .busFailure      => 0x05#8

/-- The STATUS byte (R48). -/
def Status.code : Status → BitVec 8
  | .ok              => 0x00#8
  | .invalidRotation => 0x01#8

/-- The response word: STATUS in [31:24], 0 in [23:16], the result in [15:0] (R48). -/
def response (status : Status) (result : BitVec 16) : BitVec 32 := status.code ++ 0#8 ++ result

/-- The result of GET_SHAPE: W in [15:8], H in [7:0] (R48, R68). -/
def shapeResult (wh : Nat × Nat) : BitVec 16 := BitVec.ofNat 8 wh.1 ++ BitVec.ofNat 8 wh.2

end Sys2Proof.Machine
end

