-- ==== Sys2Proof/Machine/Operands.lean ====
section
/-! DEFINITION. What is computed from operands alone: the quantizer (40_quantizer.md rules R55 to R57), the rotation address
mapper (41_address_mapper.md rules R62 to R66), the panel contexts and the table lookup (42_serializer.md rules R69, R70)
and the host's brightness conversion (43_transmitter.md rule R79). -/

namespace Sys2Proof.Machine

/-! ## Quantizer -/

/-- Quantize(c) = c >> 2, a 6-bit value (R55). -/
def quantize (c : Byte) : BitVec 6 := (c >>> 2).setWidth 6

/-- Pack(r6, g6, b6) = zext_32((r6 << 16) | (g6 << 8) | b6) (R56). -/
def pack (r g b : BitVec 6) : Pixel :=
  (r.setWidth 32 <<< 16) ||| (g.setWidth 32 <<< 8) ||| b.setWidth 32

/-- The lanes of a color in the order red, green, blue (R70, D10). -/
inductive Lane where
  | red
  | green
  | blue
  deriving DecidableEq, Repr

/-- One lane of Unpack: v[23:16], v[15:8] or v[7:0] (R57). -/
def lane (v : Pixel) : Lane → Byte
  | .red   => v.extractLsb' 16 8
  | .green => v.extractLsb' 8 8
  | .blue  => v.extractLsb' 0 8

/-- Unpack(v) (R57). -/
def unpack (v : Pixel) : Byte × Byte × Byte := (lane v .red, lane v .green, lane v .blue)

/-- The pixel a color is stored as: each channel quantized, then packed (R59, R60). -/
def colorPixel (r g b : Byte) : Pixel := pack (quantize r) (quantize g) (quantize b)

/-- A slot satisfies R23: bits [31:22], [15:14] and [7:6] are 0. -/
def pixelLegal (v : Pixel) : Bool := v &&& 0xFFC0C0C0#32 == 0#32

/-- The pixel buffer satisfies R23 in every slot. -/
def Memory.wf (m : Memory) : Bool := m.toList.all pixelLegal

/-! ## Rotation address mapper -/

/-- Shape(ROT) = (W, H) (R62). -/
def shape : Rotation → Nat × Nat
  | .deg0   => (cols, rows)
  | .deg90  => (rows, cols)
  | .deg180 => (cols, rows)
  | .deg270 => (rows, cols)

/-- Addr(ROT, x, y) for a coordinate that passed the bounds check (R63). -/
def addr (rot : Rotation) (x y : Nat) : Nat :=
  match rot with
  | .deg0   => x * rows + y
  | .deg90  => (cols - 1 - y) * rows + x
  | .deg180 => (cols - 1 - x) * rows + (rows - 1 - y)
  | .deg270 => y * rows + (rows - 1 - x)

/-- The bounds check: x < W and y < H (R64). -/
def inRange (rot : Rotation) (x y : Nat) : Bool := decide (x < (shape rot).1 ∧ y < (shape rot).2)

/-- The inverse of Addr: the coordinate of an offset (R65 (b)). -/
def coordOf (rot : Rotation) (o : Nat) : Nat × Nat :=
  match rot with
  | .deg0   => (o / 7, o % 7)
  | .deg90  => (o % 7, 16 - o / 7)
  | .deg180 => (16 - o / 7, 6 - o % 7)
  | .deg270 => (6 - o % 7, o / 7)

/-- The rotation an angle in degrees names, none for an invalid one (R66). -/
def rotationOf (deg : BitVec 16) : Option Rotation :=
  if deg = 0#16 then some .deg0
  else if deg = 90#16 then some .deg90
  else if deg = 180#16 then some .deg180
  else if deg = 270#16 then some .deg270
  else none

/-! ## Panel contexts and the transfer frame table -/

/-- off_p (R69). -/
def offsetOf (c : Config) : Panel → Nat
  | .panel0 => 0
  | .panel1 => c.split

/-- count_p (R69). -/
def countOf (c : Config) : Panel → Nat
  | .panel0 => c.split
  | .panel1 => 119 - c.split

/-- The panel of a pixel offset: panel 0 below SPLIT, panel 1 from there on (R36, R74 (c)). -/
def panelOf (c : Config) (i : Fin 119) : Panel := if i.val < c.split then .panel0 else .panel1

/-- The pixel offsets of a panel, in ascending order (R72). -/
def panelPixels (c : Config) (p : Panel) : List (Fin 119) :=
  (List.finRange 119).filter fun i => decide (panelOf c i = p)

/-- The place of a lane in a pixel's LUT triple: red, green, blue (R70). -/
def Lane.index : Lane → Fin 3
  | .red   => 0
  | .green => 1
  | .blue  => 2

/-- LUT[3·i + c]: the frame byte that receives lane c of pixel i (R70). -/
def lutAt (c : Config) (i : Fin 119) (l : Lane) : Byte := c.lut[3 * i.val + l.index.val]

/-! ## Brightness -/

/-- a / b rounded to the nearest natural, a half to the even one (R79, D20). -/
def divHalfEven (a b : Nat) : Nat :=
  if 2 * (a % b) < b then a / b
  else if b < 2 * (a % b) then a / b + 1
  else if (a / b) % 2 = 0 then a / b
  else a / b + 1

/-- n is RoundHalfEven(v): the integer nearest v, the even one when v is exactly halfway (R79, D20). -/
def RoundsHalfEven (v : ℝ) (n : Nat) : Prop := |v - n| ≤ 1 / 2 ∧ (|v - n| = 1 / 2 → n % 2 = 0)

/-- code is BrightnessCode(level), for a real level; a level outside [0, 1] has no code (R79, I10). -/
def IsBrightnessCode (level : ℝ) (code : Byte) : Prop :=
  0 ≤ level ∧ level ≤ 1 ∧ RoundsHalfEven (level * maxBrightness) code.toNat

/-- BrightnessCode(level) for a level that is rational, as every level written in text is, as a function that can be
evaluated (R79; log entry 11). -/
def brightnessCode (level : Rat) : Option Byte :=
  if 0 ≤ level.num ∧ level.num.toNat ≤ level.den then
    some (BitVec.ofNat 8 (divHalfEven (level.num.toNat * maxBrightness) level.den))
  else none

end Sys2Proof.Machine
end

