-- ==== Sys2Proof/Machine/Ops.lean ====
section
/-! DEFINITION. The shared operations on the state: taking a request, the response, fault entry and the reset that is the
only way out of a fault, the pixel buffer, the transport and its transactions. -/

namespace Sys2Proof.Machine

/-- What a meaning answers. -/
abbrev Result := Host.Outcome State Fault Refusal

/-! ## Requests, faults and reset -/

/-- While FAULT_CAUSE ≠ 0 the DSB takes no request: a request issued to it has no step (R21, R85). -/
def serve (s : State) (body : State → Result) : Result :=
  if s.faultCause = 0#8 then body s else .fault .dsbFaulted

/-- `respond(status, result)`: write RESP (R11, R48). -/
def respond (status : Status) (result : BitVec 16) (s : State) : State :=
  { s with resp := response status result }

/-- Fault entry, `raise Fault(cause, info)`: FAULT_CAUSE and FAULT_REQ are written, everything else stays, and what was
still to be sent is not (R85). -/
def raise (cause : Cause) (info : RequestWord) (s : State) : State :=
  { s with faultCause := cause.code, faultReq := info, seq := [] }

/-- Reset up to its first transfer: every register takes its reset value, LIFE is UNINIT, TRACE stays, and the 16
transfers stand ready (R96). It is the only way out of the faulted state (R88). -/
def beginReset (s : State) : State :=
  { s with
    life := .uninit, rot := .deg0, pbuf := Vector.replicate 119 0#32, resp := 0#32, faultCause := 0#8,
    faultReq := 0#64, cs := .idle, seq := resetSequence s.cfg }

/-- The construction of a machine, Reset(config) from power-on: an ill-formed configuration is refused as a whole, and no
machine is built from it; from any other the machine is built, with the reset that starts it as its first event (R9, R71,
R96). -/
def build (c : Config) : Result :=
  if h : c.wellFormed = true then .next (State.powerOn ⟨c, h⟩) else .refused .illFormedConfig

/-- A reset of a machine that has been built: its configuration passed the check then (R9, R17, R96). -/
def startReset (s : State) : Result := .next (beginReset s)

/-- The end of the reset sequence: LIFE becomes ACTIVE when the last transfer has been sent (R96). A bus failure ends the
sequence with LIFE still UNINIT (R19, R87). -/
def endReset (s : State) : State :=
  if s.seq = [] ∧ s.faultCause = 0#8 then { s with life := .active } else s

/-! ## The pixel buffer -/

/-- `PBUF[o] <- v` (R11). -/
def storePixel (o : Nat) (v : Pixel) (s : State) : State := { s with pbuf := s.pbuf.setIfInBounds o v }

/-- `for i in 0 .. 118: PBUF[i] <- v` (R60). -/
def fillPixels (v : Pixel) (s : State) : State := { s with pbuf := Vector.replicate 119 v }

/-- `PBUF[o]`, none outside the buffer (R11, R30). -/
def loadPixel (s : State) (o : Nat) : Option Pixel := s.pbuf[o]?

/-! ## The transport and its transactions -/

/-- One chip-select line (R24). -/
def ChipSelect.line (cs : ChipSelect) : Panel → Bool
  | .panel0 => cs.line0
  | .panel1 => cs.line1

/-- Drive one chip-select line, the other stays. -/
def ChipSelect.drive (cs : ChipSelect) (v : Bool) : Panel → ChipSelect
  | .panel0 => { cs with line0 := v }
  | .panel1 => { cs with line1 := v }

/-- `cs_assert(k)` (R75). -/
def csAssert (p : Panel) (s : State) : State := { s with cs := s.cs.drive true p }

/-- `cs_deassert(k)` (R75). -/
def csDeassert (p : Panel) (s : State) : State := { s with cs := s.cs.drive false p }

/-- The end of something that sends: all of it was sent, or a write failed, the fault has been raised and nothing after
it runs (R85). -/
inductive Sent where
  | done (s : State)
  | failed (s : State)
  deriving DecidableEq, Repr

/-- Go on only after what was sent in full. -/
def Sent.andThen : Sent → (State → Sent) → Sent
  | .done s, k => k s
  | .failed s, _ => .failed s

/-- The outcome of a request or a transfer whose last act is `finish`. -/
def Sent.outcome (finish : State → State) : Sent → Result
  | .done s => .next (finish s)
  | .failed s => .next s

/-- A failed write: Fault(BUS_FAILURE, w), with both chip-select lines drawn freely (R87). -/
def busFailure (w : RequestWord) (s : State) : State :=
  raise .busFailure w
    { s with cs := ⟨Config.freeLine s.draws, Config.freeLine (s.draws + 1)⟩, draws := s.draws + 2 }

/-- `write(bytes)`: the transport answers ok or fail (R75); a fail raises the fault (R76). `w` is the request that is
being carried out, 0 during reset (R87). -/
def write (w : RequestWord) (_bytes : List Byte) (s : State) : Sent :=
  match s.answers with
  | [] => .done s
  | .ok :: rest => .done { s with answers := rest }
  | .fail :: rest => .failed (busFailure w { s with answers := rest })

/-- The writes of one transaction, in order (R76). -/
def writeAll (w : RequestWord) : List (List Byte) → State → Sent
  | [], s => .done s
  | chunk :: chunks, s => (write w chunk s).andThen (writeAll w chunks)

/-- Append a completed transaction to TRACE (R25). -/
def record (p : Panel) (bytes : List Byte) (s : State) : State := { s with trace := s.trace ++ [⟨p, bytes⟩] }

/-- `Transact(p, chunks)` (R76). -/
def transact (w : RequestWord) (p : Panel) (chunks : List (List Byte)) (s : State) : Sent :=
  (writeAll w chunks (csAssert p s)).andThen fun s => .done (record p chunks.flatten (csDeassert p s))

/-- `XFER(p, cmd, data)`: one write of the command byte and its data (R77). -/
def xfer (w : RequestWord) (p : Panel) (cmd : Command) (data : List Byte) (s : State) : Sent :=
  transact w p [commandBytes cmd data] s

/-- A display write: the header and the frame are two writes of one transaction (R78). -/
def displayWrite (w : RequestWord) (p : Panel) (addr : Byte) (frame : List Byte) (s : State) : Sent :=
  transact w p [[Command.writeDisplay.byte, addr], frame] s

/-- `XFER_WRITE_DISPLAY(p, frame)`, with the header byte of the configuration (R78). -/
def xferWriteDisplay (w : RequestWord) (p : Panel) (frame : List Byte) (s : State) : Sent :=
  displayWrite w p s.cfg.wdAddr frame s

/-- A request that sends checks LIFE first (R73, R80, R81, R84). -/
def whenActive (w : RequestWord) (s : State) (body : State → Result) : Result :=
  if s.life = .active then body s else .next (raise .notActive w s)

end Sys2Proof.Machine
end

