-- ==== Sys2Proof/Machine/BusCommands.lean ====
section
/-! DEFINITION. The bus commands: XFER and XFER_WRITE_DISPLAY as the sequencer runs them, one transaction each
(43_transmitter.md rules R76 to R78, 30_encoding.md rules R49 to R51). A failure during reset records the word 0 (R87). -/

namespace Sys2Proof.Machine

/-- XFER with its outcome: one transaction, and nothing else is written (R77). -/
def runXfer (p : Panel) (cmd : Command) (data : List Byte) (s : State) : Result :=
  serve s fun s => (xfer 0#64 p cmd data s).outcome id

/-- CMD_SOFT_RESET (R49, R50, R77). -/
def execCmdSoftReset (p : Panel) (data : List Byte) (s : State) : Result := runXfer p .softReset data s

/-- CMD_GLOBAL_BRIGHTNESS (R49, R50, R77). -/
def execCmdGlobalBrightness (p : Panel) (data : List Byte) (s : State) : Result := runXfer p .globalBrightness data s

/-- CMD_COM_PIN_CTRL (R49, R50, R77). -/
def execCmdComPinCtrl (p : Panel) (data : List Byte) (s : State) : Result := runXfer p .comPinCtrl data s

/-- CMD_ROW_PIN_CTRL (R49, R50, R77). -/
def execCmdRowPinCtrl (p : Panel) (data : List Byte) (s : State) : Result := runXfer p .rowPinCtrl data s

/-- CMD_WRITE_DISPLAY: the display-write transaction (R50, R78). -/
def execCmdWriteDisplay (p : Panel) (addr : Byte) (frame : List Byte) (s : State) : Result :=
  serve s fun s => (displayWrite 0#64 p addr frame s).outcome id

/-- CMD_READ_DISPLAY: "defined but never sent" (R51). It has no effect in the spec, so it is refused by name. -/
def execCmdReadDisplay (_p : Panel) (_data : List Byte) (_s : State) : Result := .refused .readDisplayNeverSent

/-- CMD_SYSTEM_CTRL (R49, R50, R77). -/
def execCmdSystemCtrl (p : Panel) (data : List Byte) (s : State) : Result := runXfer p .systemCtrl data s

/-- CMD_SCROLL_CTRL (R49, R50, R77). -/
def execCmdScrollCtrl (p : Panel) (data : List Byte) (s : State) : Result := runXfer p .scrollCtrl data s

end Sys2Proof.Machine
end

