-- ==== Sys2Proof/Machine/Mapper.lean ====
section
/-! DEFINITION. The requests on the rotation: SET_ROTATION and GET_SHAPE (41_address_mapper.md rules R66 to R68). -/

namespace Sys2Proof.Machine

/-- `ROT <- c` (R18). -/
def setRot (rot : Rotation) (s : State) : State := { s with rot := rot }

/-- SET_ROTATION deg (R66). The pixel buffer stays (R67). -/
def execSetRotation (deg : BitVec 16) (s : State) : Result :=
  serve s fun s =>
    match rotationOf deg with
    | some rot => .next (respond .ok 0#16 (setRot rot s))
    | none => .next (respond .invalidRotation 0#16 s)

/-- GET_SHAPE (R68). -/
def execGetShape (s : State) : Result :=
  serve s fun s => .next (respond .ok (shapeResult (shape s.rot)) s)

end Sys2Proof.Machine
end

