-- ==== Sys2Proof/Machine/PixelStore.lean ====
section
/-! DEFINITION. The requests that write the pixel buffer: SET_PIXEL, SET_ALL, CLEAR (40_quantizer.md rules R59 to R61). -/

namespace Sys2Proof.Machine

/-- SET_PIXEL x, y, r, g, b (R59). -/
def execSetPixel (x y r g b : Byte) (s : State) : Result :=
  serve s fun s =>
    if inRange s.rot x.toNat y.toNat then
      .next (respond .ok 0#16 (storePixel (addr s.rot x.toNat y.toNat) (colorPixel r g b) s))
    else .next (raise .coordRange (wordSetPixel x y r g b) s)

/-- SET_ALL r, g, b (R60). -/
def execSetAll (r g b : Byte) (s : State) : Result :=
  serve s fun s => .next (respond .ok 0#16 (fillPixels (colorPixel r g b) s))

/-- CLEAR (R61). -/
def execClear (s : State) : Result :=
  serve s fun s => .next (respond .ok 0#16 (fillPixels (pack 0#6 0#6 0#6) s))

end Sys2Proof.Machine
end

