-- ==== Sys2Proof/Machine/Serializer.lean ====
section
/-! DEFINITION. The permutation-table serializer: the frame of a panel and the request SHOW (42_serializer.md rules R72,
R73). -/

namespace Sys2Proof.Machine

/-- The three frame bytes of one pixel: FB[LUT[3·i + c]] receives lane c (R72). -/
def putPixel (c : Config) (pbuf : Memory) (fb : List Byte) (i : Fin 119) : List Byte :=
  ((fb.set (lutAt c i .red).toNat (lane pbuf[i] .red)).set (lutAt c i .green).toNat (lane pbuf[i] .green)).set
    (lutAt c i .blue).toNat (lane pbuf[i] .blue)

/-- Serialize(p): FB starts as zeros and receives the panel's pixels in ascending order (R72, D14). -/
def serialize (c : Config) (pbuf : Memory) (p : Panel) : List Byte :=
  (panelPixels c p).foldl (putPixel c pbuf) (zeros c.frameBytes)

/-- SHOW (R73): panel 0's frame, then panel 1's. -/
def execShow (s : State) : Result :=
  serve s fun s => whenActive wordShow s fun s =>
    ((xferWriteDisplay wordShow .panel0 (serialize s.cfg s.pbuf .panel0) s).andThen fun s =>
      xferWriteDisplay wordShow .panel1 (serialize s.cfg s.pbuf .panel1) s).outcome (respond .ok 0#16)

end Sys2Proof.Machine
end

