-- ==== Sys2Proof/Machine/Transmitter.lean ====
section
/-! DEFINITION. The requests of the frame transmitter: SET_BRIGHTNESS and SHUTDOWN (43_transmitter.md rules R80, R81). -/

namespace Sys2Proof.Machine

/-- SET_BRIGHTNESS code (R80): LIFE is checked before the code (R84). -/
def execSetBrightness (code : Byte) (s : State) : Result :=
  serve s fun s => whenActive (wordSetBrightness code) s fun s =>
    if maxBrightness < code.toNat then .next (raise .brightnessRange (wordSetBrightness code) s)
    else
      ((xfer (wordSetBrightness code) .panel0 .globalBrightness [code] s).andThen
        (xfer (wordSetBrightness code) .panel1 .globalBrightness [code])).outcome (respond .ok 0#16)

/-- The three transfers of SHUTDOWN to one panel: common lines off, row lines off, system off (R81). -/
def shutPanel (p : Panel) (s : State) : Sent :=
  ((xfer wordShutdown p .comPinCtrl s.cfg.pComOff s).andThen fun s =>
    xfer wordShutdown p .rowPinCtrl s.cfg.pRowOff s).andThen fun s =>
      xfer wordShutdown p .systemCtrl s.cfg.pSysOff s

/-- `LIFE <- l` (R19). -/
def setLife (l : Life) (s : State) : State := { s with life := l }

/-- SHUTDOWN (R81): LIFE is written only when all six transactions were sent. -/
def execShutdown (s : State) : Result :=
  serve s fun s => whenActive wordShutdown s fun s =>
    ((shutPanel .panel0 s).andThen (shutPanel .panel1)).outcome fun s => respond .ok 0#16 (setLife .shutdown s)

end Sys2Proof.Machine
end

