-- ==== Sys2Proof/Machine/Dispatch.lean ====
section
/-! DEFINITION. One arm for each constructor of Instr. -/

namespace Sys2Proof.Machine

def exec (i : Instr) (s : State) : Host.Outcome State Fault Refusal :=
  match i with
  | .setPixel x y r g b => Sys2Proof.Machine.execSetPixel x y r g b s
  | .setAll r g b => Sys2Proof.Machine.execSetAll r g b s
  | .clear => Sys2Proof.Machine.execClear s
  | .setRotation deg => Sys2Proof.Machine.execSetRotation deg s
  | .getShape => Sys2Proof.Machine.execGetShape s
  | .setBrightness code => Sys2Proof.Machine.execSetBrightness code s
  | .showFrame => Sys2Proof.Machine.execShow s
  | .shutdown => Sys2Proof.Machine.execShutdown s
  | .cmdSoftReset p data => Sys2Proof.Machine.execCmdSoftReset p data s
  | .cmdGlobalBrightness p data => Sys2Proof.Machine.execCmdGlobalBrightness p data s
  | .cmdComPinCtrl p data => Sys2Proof.Machine.execCmdComPinCtrl p data s
  | .cmdRowPinCtrl p data => Sys2Proof.Machine.execCmdRowPinCtrl p data s
  | .cmdWriteDisplay p addr frame => Sys2Proof.Machine.execCmdWriteDisplay p addr frame s
  | .cmdReadDisplay p data => Sys2Proof.Machine.execCmdReadDisplay p data s
  | .cmdSystemCtrl p data => Sys2Proof.Machine.execCmdSystemCtrl p data s
  | .cmdScrollCtrl p data => Sys2Proof.Machine.execCmdScrollCtrl p data s

end Sys2Proof.Machine
end

