-- ==== Sys2Proof/Machine/Sequencer.lean ====
section
/-! DEFINITION. What the DSB does next: the rest of a running reset sequence, else the host's next event (10_state.md rule
R15, 20_memory.md rule R38, 70_reset_and_hazards.md rule R96). -/

namespace Sys2Proof.Machine

/-- The end of a transfer of the reset sequence: nothing more to do, or LIFE becomes ACTIVE after the last (R96). -/
def afterTransfer : Result → Result
  | .next s => .next (endReset s)
  | .fault f => .fault f
  | .refused r => .refused r

/-- The next transfer of the reset sequence: its bytes are decoded and the command is run (R96, R50). -/
def runTransfer (t : Transaction) (rest : List Transaction) (s : State) : Result :=
  match decode (.transfer t.panel t.bytes) with
  | .error why => .refused (.noTransaction why)
  | .ok i => afterTransfer (exec i { s with seq := rest })

/-- A request word issued by the host (R3, R47): an illegal one raises Fault(ILLEGAL_REQUEST, w). -/
def takeRequest (w : RequestWord) (s : State) : Result :=
  match decode (.request w) with
  | .error _ => serve s fun s => .next (raise .illegalRequest w s)
  | .ok i => exec i s

/-- A host event that has been taken. -/
def takeEvent : HostEvent → State → Result
  | .request w, s => takeRequest w s
  | .reset, s => startReset s

/-- One step: a transfer of the reset sequence comes before any host event (91 N21); with neither the DSB waits (log
entry 2). -/
def advance (s : State) : Result :=
  match s.seq with
  | t :: rest => runTransfer t rest s
  | [] =>
    match s.host with
    | [] => .next s
    | e :: rest => takeEvent e { s with host := rest }

/-- Put an instruction where the next step takes it from: a request word at the head of the host's events with no
transfer before it, a transaction at the head of the sequencer (log entry 8). -/
def placeFetch (s : State) : Fetch → State
  | .request w => { s with seq := [], host := .request w :: s.host }
  | .transfer p bytes => { s with seq := ⟨p, bytes⟩ :: s.seq }

/-- The same for a row of spec/opcode_table.json. -/
def placeTableWord (s : State) (nbits w : Nat) : State :=
  match tableFetch nbits w with
  | none => s
  | some f => placeFetch s f

end Sys2Proof.Machine
end

