-- ==== Sys2Proof/Machine/Step.lean ====
section
/-! DEFINITION. The step (00_scope.md rule R12), and where it takes its next instruction from. -/

namespace Sys2Proof.Machine

/-- One step of the DSB. -/
def step (s : State) : Host.Outcome State Fault Refusal := advance s

/-- `s` with the instruction of an opcode-table row placed where `step` takes its next instruction from. -/
def State.withFetchWord (s : State) (nbits w : Nat) : State := placeTableWord s nbits w

end Sys2Proof.Machine
end

