-- ==== Sys2Proof/Machine/Assembler.lean ====
section
/-! DEFINITION. The assembler of a request stream, on the host (30_encoding.md rules R53, R54). Text is a list of
characters, so that a test can be evaluated. -/

namespace Sys2Proof.Machine.Assembler

/-- Why the assembler refuses a line. -/
inductive AsmError where
  | unknownMnemonic
  | wrongOperands
  | badNumber
  /-- An operand does not fit its field (R53). -/
  | doesNotFit
  /-- A brightness level outside [0, 1] has no code (R79). -/
  | noCode
  deriving DecidableEq, Repr

/-- A number as an operand of n bits; one that does not fit its field is refused (R53). -/
def fit (n v : Nat) : Except AsmError (BitVec n) := if v < 2 ^ n then .ok (BitVec.ofNat n v) else .error .doesNotFit

/-- The request of a mnemonic and its operands, in the order of R53. -/
def request (mnemonic : List Char) (ops : List Nat) : Except AsmError Instr :=
  if mnemonic = ['S', 'E', 'T', '_', 'P', 'I', 'X', 'E', 'L'] then
    match ops with
    | [x, y, r, g, b] => do return .setPixel (← fit 8 x) (← fit 8 y) (← fit 8 r) (← fit 8 g) (← fit 8 b)
    | _ => .error .wrongOperands
  else if mnemonic = ['S', 'E', 'T', '_', 'A', 'L', 'L'] then
    match ops with
    | [r, g, b] => do return .setAll (← fit 8 r) (← fit 8 g) (← fit 8 b)
    | _ => .error .wrongOperands
  else if mnemonic = ['C', 'L', 'E', 'A', 'R'] then
    match ops with
    | [] => .ok .clear
    | _ => .error .wrongOperands
  else if mnemonic = ['S', 'E', 'T', '_', 'R', 'O', 'T', 'A', 'T', 'I', 'O', 'N'] then
    match ops with
    | [deg] => do return .setRotation (← fit 16 deg)
    | _ => .error .wrongOperands
  else if mnemonic = ['G', 'E', 'T', '_', 'S', 'H', 'A', 'P', 'E'] then
    match ops with
    | [] => .ok .getShape
    | _ => .error .wrongOperands
  else if mnemonic = ['S', 'E', 'T', '_', 'B', 'R', 'I', 'G', 'H', 'T', 'N', 'E', 'S', 'S'] then
    match ops with
    | [code] => do return .setBrightness (← fit 8 code)
    | _ => .error .wrongOperands
  else if mnemonic = ['S', 'H', 'O', 'W'] then
    match ops with
    | [] => .ok .showFrame
    | _ => .error .wrongOperands
  else if mnemonic = ['S', 'H', 'U', 'T', 'D', 'O', 'W', 'N'] then
    match ops with
    | [] => .ok .shutdown
    | _ => .error .wrongOperands
  else .error .unknownMnemonic

/-- The pseudo-instruction SET_BRIGHTNESS_F level = SET_BRIGHTNESS BrightnessCode(level) (R54, R79). -/
def brightnessF (level : Rat) : Except AsmError Instr :=
  match brightnessCode level with
  | some code => .ok (.setBrightness code)
  | none => .error .noCode

/-! ## Text -/

/-- The value of a digit, of 16 at most. -/
def digit (c : Char) : Option Nat :=
  if '0' ≤ c ∧ c ≤ '9' then some (c.toNat - 48)
  else if 'a' ≤ c ∧ c ≤ 'f' then some (c.toNat - 87)
  else if 'A' ≤ c ∧ c ≤ 'F' then some (c.toNat - 55)
  else none

/-- The digits of a number in base `base`, read on from `acc`. -/
def digits (base acc : Nat) : List Char → Option Nat
  | [] => some acc
  | c :: cs =>
    match digit c with
    | none => none
    | some d => if d < base then digits base (base * acc + d) cs else none

/-- A number, decimal or 0x hexadecimal (R53). -/
def number : List Char → Option Nat
  | [] => none
  | ['0', 'x'] => none
  | '0' :: 'x' :: cs => digits 16 0 cs
  | cs => digits 10 0 cs

/-- A level: `n`, `n/d` or `n.ddd`. DESIGN CHOICE: the spec gives no text form of a fraction (log entry 10). -/
def level (cs : List Char) : Option Rat :=
  match cs.span (· ≠ '/') with
  | (n, '/' :: d) =>
    match number n, number d with
    | some a, some b => if b = 0 then none else some (mkRat a b)
    | _, _ => none
  | _ =>
    match cs.span (· ≠ '.') with
    | (n, '.' :: d) =>
      match digits 10 0 n, digits 10 0 d with
      | some a, some b => if n = [] ∨ d = [] then none else some (mkRat (a * 10 ^ d.length + b) (10 ^ d.length))
      | _, _ => none
    | _ => (number cs).map fun a => mkRat a 1

/-- A blank. -/
def blankChar (c : Char) : Bool := c = ' ' ∨ c = '\t' ∨ c = '\r'

/-- Without blanks at either end. -/
def trim (cs : List Char) : List Char := ((cs.dropWhile blankChar).reverse.dropWhile blankChar).reverse

/-- Cut at every separator. -/
def cut (sep : Char) : List Char → List (List Char)
  | [] => [[]]
  | c :: cs =>
    if c = sep then [] :: cut sep cs
    else
      match cut sep cs with
      | [] => [[c]]
      | w :: ws => (c :: w) :: ws

/-- The operands after a mnemonic, separated by commas (R53). -/
def operands (cs : List Char) : List (List Char) := if trim cs = [] then [] else (cut ',' cs).map trim

/-- All numbers of a list, or the refusal. -/
def numbers : List (List Char) → Except AsmError (List Nat)
  | [] => .ok []
  | w :: ws =>
    match number w with
    | none => .error .badNumber
    | some n => do return n :: (← numbers ws)

/-- One line: `;` starts a comment, then the mnemonic, then its operands; a line with neither is no request (R53). -/
def line (cs : List Char) : Except AsmError (Option Instr) :=
  let body := trim (cs.takeWhile (· ≠ ';'))
  let mnemonic := body.takeWhile (fun c => !blankChar c)
  let ops := operands (body.dropWhile (fun c => !blankChar c))
  if body = [] then .ok none
  else if mnemonic = ['S', 'E', 'T', '_', 'B', 'R', 'I', 'G', 'H', 'T', 'N', 'E', 'S', 'S', '_', 'F'] then
    match ops with
    | [f] =>
      match level f with
      | some l => do return some (← brightnessF l)
      | none => .error .badNumber
    | _ => .error .wrongOperands
  else do return some (← request mnemonic (← numbers ops))

/-- The requests of lines, in order. -/
def lines : List (List Char) → Except AsmError (List Instr)
  | [] => .ok []
  | l :: ls => do
    let i ← line l
    let is ← lines ls
    return i.toList ++ is

/-- A program: one request per line (R53). -/
def program (cs : List Char) : Except AsmError (List Instr) := lines (cut '\n' cs)

end Sys2Proof.Machine.Assembler
end

