-- ==== Sys2Proof/Safety.lean ====
section
/-! DEFINITION. What claims are stated with: the state between two steps of a run (`State.Inv`), the transport's good
answers, the requests among the instructions, the transactions the DSB may send. -/

namespace Sys2Proof.Machine

/-- The next n writes are answered ok, a write beyond the listed answers being taken as answered ok (log entry 4). -/
def State.Delivers (n : Nat) (s : State) : Prop := ∀ a ∈ s.answers.take n, a = WriteResult.ok

/-- The next n answers are listed and are ok: the source's "reliable bus", as far as a claim needs it (R87). It rests on
no choice of the model's. -/
def State.Reliable (n : Nat) (s : State) : Prop := s.answers.take n = List.replicate n .ok

/-- The instruction is a request, one of the eight rows of R46. -/
def isRequest : Instr → Bool
  | .setPixel _ _ _ _ _ => true
  | .setAll _ _ _ => true
  | .clear => true
  | .setRotation _ => true
  | .getShape => true
  | .setBrightness _ => true
  | .showFrame => true
  | .shutdown => true
  | .cmdSoftReset _ _ => false
  | .cmdGlobalBrightness _ _ => false
  | .cmdComPinCtrl _ _ => false
  | .cmdRowPinCtrl _ _ => false
  | .cmdWriteDisplay _ _ _ => false
  | .cmdReadDisplay _ _ => false
  | .cmdSystemCtrl _ _ => false
  | .cmdScrollCtrl _ _ => false

/-- The request needs an Active driver: SHOW, SET_BRIGHTNESS, SHUTDOWN (R19, R83). -/
def sends : Instr → Bool
  | .setPixel _ _ _ _ _ => false
  | .setAll _ _ _ => false
  | .clear => false
  | .setRotation _ => false
  | .getShape => false
  | .setBrightness _ => true
  | .showFrame => true
  | .shutdown => true
  | .cmdSoftReset _ _ => false
  | .cmdGlobalBrightness _ _ => false
  | .cmdComPinCtrl _ _ => false
  | .cmdRowPinCtrl _ _ => false
  | .cmdWriteDisplay _ _ _ => false
  | .cmdReadDisplay _ _ => false
  | .cmdSystemCtrl _ _ => false
  | .cmdScrollCtrl _ _ => false

/-- n steps, stopping at the first fault or refusal. -/
def steps : Nat → State → Result
  | 0, s => .next s
  | n + 1, s =>
    match step s with
    | .next t => steps n t
    | .fault f => .fault f
    | .refused r => .refused r

/-- A word with this OPC and a 1 among the n reserved bits from bit `lo` on raises ILLEGAL_REQUEST and changes nothing else,
whatever the state of a DSB that takes it (R47, R84). -/
def reservedFaults (opc : Byte) (lo n : Nat) : Prop :=
  ∀ (s : State) (w : RequestWord) (rest : List HostEvent),
    s.seq = [] → s.host = .request w :: rest → s.faultCause = 0#8 →
    w.extractLsb' 56 8 = opc → w.extractLsb' lo n ≠ 0 →
    step s = .next { s with host := rest, faultCause := 0x01#8, faultReq := w }

/-- The transaction is in the list of R50: it decodes to a bus command that is well formed under the configuration. -/
def Transaction.legal (c : Config) (t : Transaction) : Bool :=
  match decode (.transfer t.panel t.bytes) with
  | .ok i => i.wellFormed c
  | .error _ => false

/-- What holds between two steps of a run of the DSB, from the first reset on. -/
structure State.Inv (s : State) : Prop where
  /-- The machine was built from a well-formed configuration (R9); its type says so. -/
  config       : s.cfg.wellFormed = true
  /-- Only the low 6 bits of a lane are ever set (R23). -/
  pixels       : Memory.wf s.pbuf = true
  /-- FAULT_CAUSE holds 0 or a listed code (R83). -/
  causeListed  : s.faultCause = 0#8 ∨ ∃ c : Cause, s.faultCause = c.code
  /-- FAULT_REQ is 0 until a fault (R21). -/
  requestClear : s.faultCause = 0#8 → s.faultReq = 0#64
  /-- RESP is OK, INVALID_ROTATION or one of the two shapes (R48, R68). -/
  respListed   : s.resp ∈ [0x00000000#32, 0x01000000#32, 0x00001107#32, 0x00000711#32]
  /-- Both lines are deasserted, but after a bus failure (R24). -/
  linesIdle    : s.faultCause ≠ Cause.busFailure.code → s.cs = .idle
  /-- Every transaction sent is one of R50. -/
  traceLegal   : ∀ t ∈ s.trace, t.legal s.cfg = true
  /-- What the sequencer still has to send is the end of the reset sequence, and meanwhile LIFE is UNINIT (R19, R96). -/
  resetRunning : s.seq ≠ [] → s.life = .uninit ∧ s.faultCause = 0#8 ∧ s.seq <:+ resetSequence s.cfg
  /-- LIFE is UNINIT only while reset runs or after its bus failure (R19). -/
  uninitOnly   : s.life = .uninit → s.seq ≠ [] ∨ s.faultCause = Cause.busFailure.code

end Sys2Proof.Machine
end

