-- ==== Sys2Proof/Certificates/Slice0/Obligations.lean ====
section
/-! DEFINITION. The statements for the provers. Numbers and words in them are written out from the spec. -/

open Sys2Proof Sys2Proof.Machine

/-! ## Encoding and stepping -/

/-- Decoding what the encoder writes gives the instruction back, with every operand at every value. -/
def Obligations.DecodeInvertsEncode : Prop :=
  ∀ i : Instr, decode (encode i) = .ok i

/-- A word or a transaction that decodes is the encoding of its instruction: no bit of it is ignored. -/
def Obligations.EncodeInvertsDecode : Prop :=
  ∀ (f : Fetch) (i : Instr), decode f = .ok i → encode i = f

/-- R45, R46: a request word decodes as the row of the opcode map that it matches, with its operands the unsigned values of
their fields; at most one row matches; a word that matches none is rejected. -/
def Obligations.RequestsDecodeByOpcodeMap : Prop :=
  ∀ w : RequestWord,
    (w &&& 0xFF0000FFFF000000#64 = 0x0100000000000000#64 →
      decode (.request w) = .ok (.setPixel (w.extractLsb' 48 8) (w.extractLsb' 40 8) (w.extractLsb' 16 8)
        (w.extractLsb' 8 8) (w.extractLsb' 0 8))) ∧
    (w &&& 0xFFFFFFFFFF000000#64 = 0x0200000000000000#64 →
      decode (.request w) = .ok (.setAll (w.extractLsb' 16 8) (w.extractLsb' 8 8) (w.extractLsb' 0 8))) ∧
    (w &&& 0xFFFFFFFFFFFFFFFF#64 = 0x0300000000000000#64 → decode (.request w) = .ok .clear) ∧
    (w &&& 0xFFFFFFFFFFFF0000#64 = 0x0400000000000000#64 →
      decode (.request w) = .ok (.setRotation (w.extractLsb' 0 16))) ∧
    (w &&& 0xFFFFFFFFFFFFFFFF#64 = 0x0500000000000000#64 → decode (.request w) = .ok .getShape) ∧
    (w &&& 0xFFFFFFFFFFFFFF00#64 = 0x0600000000000000#64 →
      decode (.request w) = .ok (.setBrightness (w.extractLsb' 0 8))) ∧
    (w &&& 0xFFFFFFFFFFFFFFFF#64 = 0x0700000000000000#64 → decode (.request w) = .ok .showFrame) ∧
    (w &&& 0xFFFFFFFFFFFFFFFF#64 = 0x0800000000000000#64 → decode (.request w) = .ok .shutdown) ∧
    ((∀ r ∈ opcodeMap, r.hits w = false) → ∃ why, decode (.request w) = .error why) ∧
    (∀ r ∈ opcodeMap, ∀ q ∈ opcodeMap, r.hits w = true → q.hits w = true → r = q)

/-- Words and transactions written out in 95_test_vectors.md decode to the instructions they stand for there. -/
def Obligations.SpecWordsDecode : Prop :=
  decode (.request 0x01100600000804FC#64) = .ok (.setPixel 16#8 6#8 8#8 4#8 252#8) ∧
  decode (.request 0x0200000000804020#64) = .ok (.setAll 128#8 64#8 32#8) ∧
  decode (.request 0x0300000000000000#64) = .ok .clear ∧
  decode (.request 0x040000000000010E#64) = .ok (.setRotation 270#16) ∧
  decode (.request 0x0500000000000000#64) = .ok .getShape ∧
  decode (.request 0x060000000000003F#64) = .ok (.setBrightness 63#8) ∧
  decode (.request 0x0700000000000000#64) = .ok .showFrame ∧
  decode (.request 0x0800000000000000#64) = .ok .shutdown ∧
  decode (.transfer .panel1 [0x37#8, 0x3F#8]) = .ok (.cmdGlobalBrightness .panel1 [0x3F#8]) ∧
  decode (.transfer .panel0 [0x41#8, 0xFF#8]) = .ok (.cmdComPinCtrl .panel0 [0xFF#8])

/-- When no transfer of a reset is pending and the host's next event is a request word that decodes, a step is `exec` of
that instruction on the state with the event taken; the events after it stay in their order. -/
def Obligations.StepRunsDecodedRequest : Prop :=
  ∀ (s : State) (w : RequestWord) (rest : List HostEvent) (i : Instr),
    s.seq = [] → s.host = .request w :: rest → decode (.request w) = .ok i →
    step s = exec i { s with host := rest }

/-- When a transfer is pending and its bytes decode, a step is `exec` of that bus command, and LIFE becomes ACTIVE if it
was the last of the sequence and no fault was raised. The host's events wait. -/
def Obligations.StepRunsDecodedTransfer : Prop :=
  ∀ (s : State) (t : Transaction) (rest : List Transaction) (i : Instr),
    s.seq = t :: rest → decode (.transfer t.panel t.bytes) = .ok i →
    (∀ u, exec i { s with seq := rest } = .next u →
      step s = .next (if u.seq = [] ∧ u.faultCause = 0#8 then { u with life := .active } else u)) ∧
    (∀ f, exec i { s with seq := rest } = .fault f → step s = .fault f) ∧
    (∀ r, exec i { s with seq := rest } = .refused r → step s = .refused r)

/-- R47: a word whose OPC is 0x00 or 0x09 to 0xFF, or that sets a reserved bit of its format, raises
Fault(ILLEGAL_REQUEST, w) and changes no other state. -/
def Obligations.IllegalRequestFaults : Prop :=
  ∀ (s : State) (w : RequestWord) (rest : List HostEvent),
    s.seq = [] → s.host = .request w :: rest → s.faultCause = 0#8 →
    (w.extractLsb' 56 8 = 0x00#8 ∨ 0x09#8 ≤ w.extractLsb' 56 8 ∨
      (w.extractLsb' 56 8 = 0x01#8 ∧ w.extractLsb' 24 16 ≠ 0#16) ∨
      (w.extractLsb' 56 8 = 0x02#8 ∧ w.extractLsb' 24 32 ≠ 0#32) ∨
      (w.extractLsb' 56 8 = 0x03#8 ∧ w.extractLsb' 0 56 ≠ 0#56) ∨
      (w.extractLsb' 56 8 = 0x04#8 ∧ w.extractLsb' 16 40 ≠ 0#40) ∨
      (w.extractLsb' 56 8 = 0x05#8 ∧ w.extractLsb' 0 56 ≠ 0#56) ∨
      (w.extractLsb' 56 8 = 0x06#8 ∧ w.extractLsb' 8 48 ≠ 0#48) ∨
      (w.extractLsb' 56 8 = 0x07#8 ∧ w.extractLsb' 0 56 ≠ 0#56) ∨
      (w.extractLsb' 56 8 = 0x08#8 ∧ w.extractLsb' 0 56 ≠ 0#56)) →
    step s = .next { s with host := rest, faultCause := 0x01#8, faultReq := w }

/-! ## Quantizer -/

/-- R55, R56, R57: Quantize drops the two low bits; Pack puts red at bit 16, green at bit 8, blue at bit 0 and nothing
elsewhere; Unpack reads the three byte lanes. -/
def Obligations.QuantizePackUnpackValues : Prop :=
  (∀ c : Byte, (quantize c).toNat = c.toNat / 4) ∧
  (∀ r g b : BitVec 6, (pack r g b).toNat = r.toNat * 65536 + g.toNat * 256 + b.toNat) ∧
  (∀ v : Pixel, unpack v = (v.extractLsb' 16 8, v.extractLsb' 8 8, v.extractLsb' 0 8)) ∧
  (∀ r g b : BitVec 6, unpack (pack r g b) = (r.setWidth 8, g.setWidth 8, b.setWidth 8))

/-- R58: the laws of the quantizer, (a) to (f). -/
def Obligations.QuantizerLaws : Prop :=
  (∀ c : Byte, (quantize c).toNat ≤ 63) ∧ quantize 255#8 = 63#6 ∧ quantize 0#8 = 0#6 ∧
  (∀ c d : Byte, c.toNat ≤ d.toNat → (quantize c).toNat ≤ (quantize d).toNat) ∧
  (∀ (q : BitVec 6) (c : Byte), quantize c = q ↔
    c.toNat = 4 * q.toNat ∨ c.toNat = 4 * q.toNat + 1 ∨ c.toNat = 4 * q.toNat + 2 ∨ c.toNat = 4 * q.toNat + 3) ∧
  (∀ c : Byte, quantize ((quantize c).setWidth 8 <<< 2) = quantize c) ∧
  (∀ c : Byte, (quantize c).toNat = c.toNat / 4) ∧
  (∀ r g b r' g' b' : BitVec 6, pack r g b = pack r' g' b' → r = r' ∧ g = g' ∧ b = b') ∧
  (∀ r g b : BitVec 6, unpack (pack r g b) = (r.setWidth 8, g.setWidth 8, b.setWidth 8))

/-! ## Rotation address mapper -/

/-- R62, R63: the shapes; and the four address functions on coordinates in range, in integers (so that no subtraction
goes below 0), with every result in [0, 119). -/
def Obligations.ShapesAndAddressFunctions : Prop :=
  shape .deg0 = (17, 7) ∧ shape .deg90 = (7, 17) ∧ shape .deg180 = (17, 7) ∧ shape .deg270 = (7, 17) ∧
  (∀ (rot : Rotation) (x y : Nat), x < (shape rot).1 → y < (shape rot).2 →
    addr rot x y < 119 ∧
    (addr rot x y : Int) =
      match rot with
      | .deg0 => 7 * (x : Int) + y
      | .deg90 => 7 * (16 - (y : Int)) + x
      | .deg180 => 7 * (16 - (x : Int)) + (6 - y)
      | .deg270 => 7 * (y : Int) + (6 - x))

/-- R65: under each rotation Addr is a bijection from the coordinates in range onto [0, 119) (a), with the inverses of the
table (b); the rotations by 180 and 90 degrees mirror those by 0 and 270 (c); the 180-degree map is an involution on
offsets (d). -/
def Obligations.MapperLaws : Prop :=
  (∀ (rot : Rotation) (x y x' y' : Nat), x < (shape rot).1 → y < (shape rot).2 → x' < (shape rot).1 →
    y' < (shape rot).2 → addr rot x y = addr rot x' y' → x = x' ∧ y = y') ∧
  (∀ (rot : Rotation) (x y : Nat), x < (shape rot).1 → y < (shape rot).2 →
    addr rot x y < 119 ∧ coordOf rot (addr rot x y) = (x, y)) ∧
  (∀ (rot : Rotation) (o : Nat), o < 119 →
    (coordOf rot o).1 < (shape rot).1 ∧ (coordOf rot o).2 < (shape rot).2 ∧
    addr rot (coordOf rot o).1 (coordOf rot o).2 = o) ∧
  (∀ o : Nat, o < 119 →
    coordOf .deg0 o = (o / 7, o % 7) ∧ coordOf .deg90 o = (o % 7, 16 - o / 7) ∧
    coordOf .deg180 o = (16 - o / 7, 6 - o % 7) ∧ coordOf .deg270 o = (6 - o % 7, o / 7)) ∧
  (∀ x y : Nat, x < 17 → y < 7 → addr .deg180 x y = 118 - addr .deg0 x y) ∧
  (∀ x y : Nat, x < 7 → y < 17 → addr .deg90 x y = 118 - addr .deg270 x y) ∧
  (∀ o : Nat, o < 119 → addr .deg180 (coordOf .deg180 o).1 (coordOf .deg180 o).2 = o ∧ 118 - (118 - o) = o)

/-! ## The requests -/

/-- R59, R64: SET_PIXEL, its word, its reserved bits, its result and frame on a coordinate in range, and COORD_RANGE on any
other. -/
def Obligations.SetPixelWritesOneSlotOrFaults : Prop :=
  (∀ x y r g b : Byte, encode (.setPixel x y r g b) =
    .request (0x01#8 ++ x ++ y ++ 0#16 ++ r ++ g ++ b : BitVec 64)) ∧
  reservedFaults 0x01#8 24 16 ∧
  (∀ (s : State) (x y r g b : Byte), s.faultCause = 0#8 →
    x.toNat < (shape s.rot).1 → y.toNat < (shape s.rot).2 →
    ∃ t, exec (.setPixel x y r g b) s = .next t ∧
      loadPixel t (addr s.rot x.toNat y.toNat) =
        some (((r >>> 2).setWidth 32 <<< 16) ||| ((g >>> 2).setWidth 32 <<< 8) ||| (b >>> 2).setWidth 32) ∧
      (∀ a, a ≠ addr s.rot x.toNat y.toNat → loadPixel t a = loadPixel s a) ∧
      t.resp = 0x00000000#32 ∧
      { t with pbuf := s.pbuf, resp := s.resp } = s) ∧
  (∀ (s : State) (x y r g b : Byte), s.faultCause = 0#8 →
    (shape s.rot).1 ≤ x.toNat ∨ (shape s.rot).2 ≤ y.toNat →
    exec (.setPixel x y r g b) s =
      .next { s with faultCause := 0x02#8, seq := [],
                     faultReq := (0x01#8 ++ x ++ y ++ 0#16 ++ r ++ g ++ b : BitVec 64) })

/-- R60: SET_ALL writes one quantized color into every slot, under every rotation and lifecycle state, and changes nothing
else but RESP. -/
def Obligations.SetAllFillsEverySlot : Prop :=
  (∀ r g b : Byte, encode (.setAll r g b) = .request (0x02#8 ++ 0#32 ++ r ++ g ++ b : BitVec 64)) ∧
  reservedFaults 0x02#8 24 32 ∧
  (∀ (s : State) (r g b : Byte), s.faultCause = 0#8 →
    ∃ t, exec (.setAll r g b) s = .next t ∧
      (∀ a, a < 119 → loadPixel t a =
        some (((r >>> 2).setWidth 32 <<< 16) ||| ((g >>> 2).setWidth 32 <<< 8) ||| (b >>> 2).setWidth 32)) ∧
      t.resp = 0x00000000#32 ∧
      { t with pbuf := s.pbuf, resp := s.resp } = s)

/-- R61: CLEAR sets every slot to 0 and changes nothing else but RESP; it is SET_ALL 0, 0, 0 on every state. -/
def Obligations.ClearBlanksEverySlot : Prop :=
  encode .clear = .request 0x0300000000000000#64 ∧
  reservedFaults 0x03#8 0 56 ∧
  (∀ s : State, s.faultCause = 0#8 →
    ∃ t, exec .clear s = .next t ∧ (∀ a, a < 119 → loadPixel t a = some 0x00000000#32) ∧
      t.resp = 0x00000000#32 ∧ { t with pbuf := s.pbuf, resp := s.resp } = s) ∧
  (∀ s : State, exec .clear s = exec (.setAll 0#8 0#8 0#8) s)

/-- R66, R67: SET_ROTATION writes ROT for the four legal angles and answers INVALID_ROTATION, with everything but RESP
unchanged, for every other; the pixel buffer stays. -/
def Obligations.SetRotationSelectsOrReports : Prop :=
  (∀ deg : BitVec 16, encode (.setRotation deg) = .request (0x04#8 ++ 0#40 ++ deg : BitVec 64)) ∧
  reservedFaults 0x04#8 16 40 ∧
  (∀ s : State, s.faultCause = 0#8 →
    exec (.setRotation 0#16) s = .next { s with rot := .deg0, resp := 0x00000000#32 } ∧
    exec (.setRotation 90#16) s = .next { s with rot := .deg90, resp := 0x00000000#32 } ∧
    exec (.setRotation 180#16) s = .next { s with rot := .deg180, resp := 0x00000000#32 } ∧
    exec (.setRotation 270#16) s = .next { s with rot := .deg270, resp := 0x00000000#32 }) ∧
  (∀ (s : State) (deg : BitVec 16), s.faultCause = 0#8 →
    deg ≠ 0#16 → deg ≠ 90#16 → deg ≠ 180#16 → deg ≠ 270#16 →
    exec (.setRotation deg) s = .next { s with resp := 0x01000000#32 })

/-- R68: GET_SHAPE reports width and height under the current rotation and changes nothing but RESP. -/
def Obligations.GetShapeReportsShape : Prop :=
  encode .getShape = .request 0x0500000000000000#64 ∧
  reservedFaults 0x05#8 0 56 ∧
  (∀ s : State, s.faultCause = 0#8 →
    exec .getShape s = .next { s with resp :=
      match s.rot with
      | .deg0 => 0x00001107#32
      | .deg90 => 0x00000711#32
      | .deg180 => 0x00001107#32
      | .deg270 => 0x00000711#32 })

/-- R73: SHOW sends panel 0's frame and then panel 1's, each behind the header [0x80, WD_ADDR]; it faults with NOT_ACTIVE
and sends nothing when LIFE is not ACTIVE; a failure of write k of its four leaves the transactions completed before it,
raises BUS_FAILURE and leaves both lines as drawn. -/
def Obligations.ShowSendsTwoFrames : Prop :=
  encode .showFrame = .request 0x0700000000000000#64 ∧
  reservedFaults 0x07#8 0 56 ∧
  (∀ s : State, s.faultCause = 0#8 → s.life ≠ .active →
    exec .showFrame s = .next { s with faultCause := 0x03#8, faultReq := 0x0700000000000000#64, seq := [] }) ∧
  (∀ s : State, s.faultCause = 0#8 → s.life = .active → s.Reliable 4 →
    exec .showFrame s = .next { s with
      trace := s.trace ++
        [⟨.panel0, [0x80#8, s.cfg.wdAddr] ++ serialize s.cfg s.pbuf .panel0⟩,
         ⟨.panel1, [0x80#8, s.cfg.wdAddr] ++ serialize s.cfg s.pbuf .panel1⟩],
      cs := ⟨false, false⟩, answers := s.answers.drop 4, resp := 0x00000000#32 }) ∧
  (∀ (s : State) (k : Nat) (rest : List WriteResult), s.faultCause = 0#8 → s.life = .active → k < 4 →
    s.answers = List.replicate k .ok ++ .fail :: rest →
    exec .showFrame s = .next { s with
      trace := s.trace ++ (if k < 2 then [] else [⟨.panel0, [0x80#8, s.cfg.wdAddr] ++ serialize s.cfg s.pbuf .panel0⟩]),
      cs := ⟨Config.freeLine s.draws, Config.freeLine (s.draws + 1)⟩, draws := s.draws + 2, answers := rest,
      faultCause := 0x05#8, faultReq := 0x0700000000000000#64, seq := [] })

/-- R80: SET_BRIGHTNESS sends [0x37, CODE] to panel 0 and then to panel 1; NOT_ACTIVE comes before BRIGHTNESS_RANGE, and
both send nothing; a failure of write k leaves the transaction completed before it. No brightness is kept. -/
def Obligations.SetBrightnessSendsCode : Prop :=
  (∀ code : Byte, encode (.setBrightness code) = .request (0x06#8 ++ 0#48 ++ code : BitVec 64)) ∧
  reservedFaults 0x06#8 8 48 ∧
  (∀ (s : State) (code : Byte), s.faultCause = 0#8 → s.life ≠ .active →
    exec (.setBrightness code) s = .next { s with
      faultCause := 0x03#8, faultReq := (0x06#8 ++ 0#48 ++ code : BitVec 64), seq := [] }) ∧
  (∀ (s : State) (code : Byte), s.faultCause = 0#8 → s.life = .active → 63 < code.toNat →
    exec (.setBrightness code) s = .next { s with
      faultCause := 0x04#8, faultReq := (0x06#8 ++ 0#48 ++ code : BitVec 64), seq := [] }) ∧
  (∀ (s : State) (code : Byte), s.faultCause = 0#8 → s.life = .active → code.toNat ≤ 63 → s.Reliable 2 →
    exec (.setBrightness code) s = .next { s with
      trace := s.trace ++ [⟨.panel0, [0x37#8, code]⟩, ⟨.panel1, [0x37#8, code]⟩],
      cs := ⟨false, false⟩, answers := s.answers.drop 2, resp := 0x00000000#32 }) ∧
  (∀ (s : State) (code : Byte) (k : Nat) (rest : List WriteResult), s.faultCause = 0#8 → s.life = .active →
    code.toNat ≤ 63 → k < 2 → s.answers = List.replicate k .ok ++ .fail :: rest →
    exec (.setBrightness code) s = .next { s with
      trace := s.trace ++ (if k = 0 then [] else [⟨.panel0, [0x37#8, code]⟩]),
      cs := ⟨Config.freeLine s.draws, Config.freeLine (s.draws + 1)⟩, draws := s.draws + 2, answers := rest,
      faultCause := 0x05#8, faultReq := (0x06#8 ++ 0#48 ++ code : BitVec 64), seq := [] })

/-- R81: SHUTDOWN sends common off, row off, system off to panel 0 and then to panel 1, and then writes LIFE; when LIFE is
not ACTIVE it faults and sends nothing; a failure of write k leaves the first k transactions and LIFE as it was. -/
def Obligations.ShutdownSendsSixCommands : Prop :=
  encode .shutdown = .request 0x0800000000000000#64 ∧
  reservedFaults 0x08#8 0 56 ∧
  (∀ s : State, s.faultCause = 0#8 → s.life ≠ .active →
    exec .shutdown s = .next { s with faultCause := 0x03#8, faultReq := 0x0800000000000000#64, seq := [] }) ∧
  (∀ s : State, s.faultCause = 0#8 → s.life = .active → s.Reliable 6 →
    exec .shutdown s = .next { s with
      trace := s.trace ++
        [⟨.panel0, 0x41#8 :: s.cfg.pComOff⟩, ⟨.panel0, 0x42#8 :: s.cfg.pRowOff⟩, ⟨.panel0, 0x35#8 :: s.cfg.pSysOff⟩,
         ⟨.panel1, 0x41#8 :: s.cfg.pComOff⟩, ⟨.panel1, 0x42#8 :: s.cfg.pRowOff⟩, ⟨.panel1, 0x35#8 :: s.cfg.pSysOff⟩],
      cs := ⟨false, false⟩, answers := s.answers.drop 6, life := .shutdown, resp := 0x00000000#32 }) ∧
  (∀ (s : State) (k : Nat) (rest : List WriteResult), s.faultCause = 0#8 → s.life = .active → k < 6 →
    s.answers = List.replicate k .ok ++ .fail :: rest →
    exec .shutdown s = .next { s with
      trace := s.trace ++
        [⟨.panel0, 0x41#8 :: s.cfg.pComOff⟩, ⟨.panel0, 0x42#8 :: s.cfg.pRowOff⟩, ⟨.panel0, 0x35#8 :: s.cfg.pSysOff⟩,
         ⟨.panel1, 0x41#8 :: s.cfg.pComOff⟩, ⟨.panel1, 0x42#8 :: s.cfg.pRowOff⟩,
         (⟨.panel1, 0x35#8 :: s.cfg.pSysOff⟩ : Transaction)].take k,
      cs := ⟨Config.freeLine s.draws, Config.freeLine (s.draws + 1)⟩, draws := s.draws + 2, answers := rest,
      faultCause := 0x05#8, faultReq := 0x0800000000000000#64, seq := [] })

/-! ## The bus commands -/

/-- R77 with the command bytes of R49: each command of the general path appends the one transaction (p, [cmd] ++ data)
when its write is answered ok, leaves its line deasserted and changes nothing else; when the write fails it appends
nothing and raises BUS_FAILURE (R76, R87). That a bus command runs by itself in every unfaulted state, takes any data and
records the word 0 is the model's (log entry 17). -/
def Obligations.CommandTransfersSendOneTransaction : Prop :=
  ∀ (s : State) (p : Panel) (data : List Byte), s.faultCause = 0#8 →
    (∀ ib ∈ [(Instr.cmdSoftReset p data, 0xCC#8), (Instr.cmdGlobalBrightness p data, 0x37#8),
             (Instr.cmdComPinCtrl p data, 0x41#8), (Instr.cmdRowPinCtrl p data, 0x42#8),
             (Instr.cmdSystemCtrl p data, 0x35#8), (Instr.cmdScrollCtrl p data, 0x20#8)],
      (s.Reliable 1 → exec ib.1 s = .next { s with
        trace := s.trace ++ [⟨p, ib.2 :: data⟩], answers := s.answers.drop 1,
        cs := match p with
          | .panel0 => ⟨false, s.cs.line1⟩
          | .panel1 => ⟨s.cs.line0, false⟩ }) ∧
      (∀ rest, s.answers = .fail :: rest → exec ib.1 s = .next { s with
        faultCause := 0x05#8, faultReq := 0#64, seq := [], answers := rest,
        cs := ⟨Config.freeLine s.draws, Config.freeLine (s.draws + 1)⟩, draws := s.draws + 2 }))

/-- R78: a display write appends the one transaction (p, [0x80, addr] ++ frame) when both its writes are answered ok; when
either fails it appends nothing and raises BUS_FAILURE (R76, R87). That a display write runs by itself in every unfaulted
state, takes any header byte and frame and records the word 0 is the model's (log entry 17). -/
def Obligations.DisplayWriteSendsOneTransaction : Prop :=
  ∀ (s : State) (p : Panel) (a : Byte) (frame : List Byte), s.faultCause = 0#8 →
    (s.Reliable 2 → exec (.cmdWriteDisplay p a frame) s = .next { s with
      trace := s.trace ++ [⟨p, [0x80#8, a] ++ frame⟩], answers := s.answers.drop 2,
      cs := match p with
        | .panel0 => ⟨false, s.cs.line1⟩
        | .panel1 => ⟨s.cs.line0, false⟩ }) ∧
    (∀ k rest, k < 2 → s.answers = List.replicate k .ok ++ .fail :: rest →
      exec (.cmdWriteDisplay p a frame) s = .next { s with
        faultCause := 0x05#8, faultReq := 0#64, seq := [], answers := rest,
        cs := ⟨Config.freeLine s.draws, Config.freeLine (s.draws + 1)⟩, draws := s.draws + 2 })

/-- R51: a read-display command, which is never sent, is refused (the stop is the model's, log entry 14), and from a state of a run no step sends a transaction whose first byte is 0x81
or no command byte of R49. -/
def Obligations.ReadDisplayIsNeverSent : Prop :=
  (∀ (p : Panel) (data : List Byte) (s : State),
    exec (.cmdReadDisplay p data) s = .refused .readDisplayNeverSent) ∧
  (∀ s t : State, s.Inv → step s = .next t → ∀ x ∈ t.trace, x ∉ s.trace →
    ∃ b data, x.bytes = b :: data ∧
      b ∈ [0xCC#8, 0x37#8, 0x41#8, 0x42#8, 0x80#8, 0x35#8, 0x20#8])

/-! ## The serializer -/

/-- R69, R36, R70: panel 0 is served by CS[0] and holds the SPLIT pixels from offset 0, panel 1 is served by CS[1] and holds
the others; the counts sum to 119 and differ; both frames have FRAME_BYTES bytes; the table is cut at byte 3·SPLIT, and the
entries of pixel i are the bytes 3·i, 3·i + 1, 3·i + 2, for red, green, blue. -/
def Obligations.PanelContextsPartitionPixels : Prop :=
  (∀ s : State, (csAssert .panel0 s).cs = ⟨true, s.cs.line1⟩ ∧ (csAssert .panel1 s).cs = ⟨s.cs.line0, true⟩ ∧
    (csDeassert .panel0 s).cs = ⟨false, s.cs.line1⟩ ∧ (csDeassert .panel1 s).cs = ⟨s.cs.line0, false⟩) ∧
  ∀ c : Config, 0 < c.split → c.split < 119 →
    offsetOf c .panel0 = 0 ∧ offsetOf c .panel1 = c.split ∧
    countOf c .panel0 = c.split ∧ countOf c .panel1 = 119 - c.split ∧
    countOf c .panel0 + countOf c .panel1 = 119 ∧ countOf c .panel0 ≠ countOf c .panel1 ∧
    (∀ (m : Memory) (p : Panel), (serialize c m p).length = c.frameBytes) ∧
    (∀ i : Fin 119, (panelOf c i = .panel0 ↔ i.val < c.split) ∧ (panelOf c i = .panel1 ↔ c.split ≤ i.val)) ∧
    (∀ (i : Fin 119) (l : Fin 3), (panelOf c i = .panel0 ↔ 3 * i.val + l.val < 3 * c.split) ∧
      (panelOf c i = .panel1 ↔ 3 * c.split ≤ 3 * i.val + l.val)) ∧
    (∀ i : Fin 119, lutAt c i .red = c.lut[3 * i.val + 0] ∧ lutAt c i .green = c.lut[3 * i.val + 1] ∧
      lutAt c i .blue = c.lut[3 * i.val + 2]) ∧
    (∀ p : Panel, (panelPixels c p).map (fun i => i.val) =
      (List.range (countOf c p)).map (fun l => offsetOf c p + l))

/-- R72: Serialize is the loop of the rule, over l in 0 .. count_p − 1 with i = off_p + l and k = 3·i. -/
def Obligations.SerializeRunsTheLoop : Prop :=
  ∀ (c : Config) (m : Memory) (p : Panel), 0 < c.split → c.split < 119 →
    serialize c m p =
      (List.range (countOf c p)).foldl
        (fun fb l =>
          let i := offsetOf c p + l
          let v := (m[i]?).getD 0#32
          let k := 3 * i
          ((fb.set ((c.lut[k + 0]?).getD 0#8).toNat (v.extractLsb' 16 8)).set
            ((c.lut[k + 1]?).getD 0#8).toNat (v.extractLsb' 8 8)).set
            ((c.lut[k + 2]?).getD 0#8).toNat (v.extractLsb' 0 8))
        (List.replicate c.frameBytes 0#8)

/-- R74 (b), (c), (e): under a well-formed configuration a panel's frame has FRAME_BYTES bytes; the byte the table names
for a lane of a pixel is that lane, in the frame of the pixel's panel; a byte that no entry of the panel names is 0. -/
def Obligations.FrameBytesAreTheLanes : Prop :=
  ∀ (c : Config) (m : Memory), c.wellFormed = true →
    (∀ p : Panel, (serialize c m p).length = c.frameBytes) ∧
    (∀ i : Fin 119,
      (serialize c m (panelOf c i))[(c.lut[3 * i.val + 0]).toNat]? = some (m[i].extractLsb' 16 8) ∧
      (serialize c m (panelOf c i))[(c.lut[3 * i.val + 1]).toNat]? = some (m[i].extractLsb' 8 8) ∧
      (serialize c m (panelOf c i))[(c.lut[3 * i.val + 2]).toNat]? = some (m[i].extractLsb' 0 8)) ∧
    (∀ (p : Panel) (k : Nat), k < c.frameBytes →
      (∀ (i : Fin 119) (l : Fin 3), panelOf c i = p → (c.lut[3 * i.val + l.val]).toNat ≠ k) →
      (serialize c m p)[k]? = some 0#8)

/-- R74 (d): what SHOW sends is a function of PBUF, SPLIT, LUT, FRAME_BYTES and WD_ADDR alone: two states that agree on
these, and differ in the rotation or anywhere else, send the same transactions. -/
def Obligations.ShowOutputIgnoresRotation : Prop :=
  ∀ s s' t t' : State,
    s.pbuf = s'.pbuf → s.cfg.split = s'.cfg.split → s.cfg.lut = s'.cfg.lut →
    s.cfg.frameBytes = s'.cfg.frameBytes → s.cfg.wdAddr = s'.cfg.wdAddr →
    exec .showFrame s = .next t → exec .showFrame s' = .next t' → t.faultCause = 0#8 → t'.faultCause = 0#8 →
    ∃ out, out.length = 2 ∧ t.trace = s.trace ++ out ∧ t'.trace = s'.trace ++ out

/-- R74 (f), the source's scenario: after a reset, SET_PIXEL 0, 0, 255, 0, 0 and SHOW put 63, 0, 0 at the bytes the table
names for pixel 0 in panel 0's frame, for every well-formed configuration. -/
def Obligations.SetPixelThenShowScenario : Prop :=
  ∀ (c : WellFormedConfig) (earlier : List Transaction) (rest : List HostEvent) (as : List WriteResult),
    as.take 4 = List.replicate 4 .ok →
    ∃ t f0 f1,
      steps 2 { State.afterReset c earlier with
        host := .request 0x0100000000FF0000#64 :: .request 0x0700000000000000#64 :: rest, answers := as } = .next t ∧
      t.host = rest ∧ t.faultCause = 0#8 ∧
      t.trace = earlier ++ resetSequence c.config ++
        [⟨.panel0, [0x80#8, c.config.wdAddr] ++ f0⟩, ⟨.panel1, [0x80#8, c.config.wdAddr] ++ f1⟩] ∧
      f0[(c.config.lut[0]).toNat]? = some 63#8 ∧ f0[(c.config.lut[1]).toNat]? = some 0#8 ∧
      f0[(c.config.lut[2]).toNat]? = some 0#8

/-! ## Faults -/

/-- R85: fault entry writes FAULT_CAUSE and FAULT_REQ and leaves the rest; while FAULT_CAUSE ≠ 0 a request has no step. -/
def Obligations.FaultEntryStopsRequests : Prop :=
  (∀ (cause : Cause) (info : RequestWord) (s : State), s.seq = [] →
    raise cause info s = { s with faultCause := cause.code, faultReq := info } ∧ cause.code ≠ 0#8) ∧
  (∀ (s : State) (w : RequestWord) (rest : List HostEvent), s.seq = [] → s.host = .request w :: rest →
    s.faultCause ≠ 0#8 → step s = .fault .dsbFaulted) ∧
  (∀ (s : State) (i : Instr), isRequest i = true → s.faultCause ≠ 0#8 → exec i s = .fault .dsbFaulted)

/-- R86, R87: a request ends in BUS_FAILURE only from an ACTIVE driver, at a write k of its own that is answered fail, the k
before it having been answered ok. TRACE has then gained the transactions completed before that write, in order and with
their bytes, and nothing of the failing one; FAULT_REQ is the request word, each line is the value drawn for it, and
everything else is as before. -/
def Obligations.BusFailureKeepsWhatWasSent : Prop :=
  ∀ (s t : State) (w : RequestWord) (rest : List HostEvent),
    s.seq = [] → s.host = .request w :: rest → s.faultCause = 0#8 → step s = .next t → t.faultCause = 0x05#8 →
    ∃ (k : Nat) (more : List WriteResult) (out : List Transaction),
      s.answers = List.replicate k .ok ++ .fail :: more ∧ s.life = .active ∧
      t = { s with
        host := rest, trace := s.trace ++ out, answers := more, faultCause := 0x05#8, faultReq := w,
        cs := ⟨Config.freeLine s.draws, Config.freeLine (s.draws + 1)⟩, draws := s.draws + 2 } ∧
      ((decode (.request w) = .ok .showFrame ∧ k < 4 ∧
          out = [(⟨.panel0, [0x80#8, s.cfg.wdAddr] ++ serialize s.cfg s.pbuf .panel0⟩ : Transaction),
                 ⟨.panel1, [0x80#8, s.cfg.wdAddr] ++ serialize s.cfg s.pbuf .panel1⟩].take (k / 2)) ∨
        (∃ code, decode (.request w) = .ok (.setBrightness code) ∧ k < 2 ∧
          out = [(⟨.panel0, [0x37#8, code]⟩ : Transaction), ⟨.panel1, [0x37#8, code]⟩].take k) ∨
        (decode (.request w) = .ok .shutdown ∧ k < 6 ∧
          out = [(⟨.panel0, 0x41#8 :: s.cfg.pComOff⟩ : Transaction), ⟨.panel0, 0x42#8 :: s.cfg.pRowOff⟩,
                 ⟨.panel0, 0x35#8 :: s.cfg.pSysOff⟩, ⟨.panel1, 0x41#8 :: s.cfg.pComOff⟩,
                 ⟨.panel1, 0x42#8 :: s.cfg.pRowOff⟩, ⟨.panel1, 0x35#8 :: s.cfg.pSysOff⟩].take k))

/-- R83, R84: a request reports the first check that fails, in the order ILLEGAL_REQUEST, NOT_ACTIVE, the argument checks,
BUS_FAILURE, with FAULT_REQ the request word; a fault has no other reason, and one of the first three leaves the rest of
the state as it was. -/
def Obligations.ChecksInPriorityOrder : Prop :=
  ∀ (s t : State) (w : RequestWord) (rest : List HostEvent),
    s.seq = [] → s.host = .request w :: rest → s.faultCause = 0#8 → step s = .next t →
    (t.faultCause ≠ 0#8 → t.faultReq = w) ∧
    (t.faultCause ≠ 0#8 → t.faultCause ≠ 0x05#8 →
      t = { s with host := rest, faultCause := t.faultCause, faultReq := w }) ∧
    (∀ why, decode (.request w) = .error why → t.faultCause = 0x01#8) ∧
    (∀ i, decode (.request w) = .ok i →
      (sends i = true → s.life ≠ .active → t.faultCause = 0x03#8) ∧
      (∀ x y r g b, i = .setPixel x y r g b → (shape s.rot).1 ≤ x.toNat ∨ (shape s.rot).2 ≤ y.toNat →
        t.faultCause = 0x02#8) ∧
      (∀ code, i = .setBrightness code → s.life = .active → 63 < code.toNat → t.faultCause = 0x04#8) ∧
      (t.faultCause ≠ 0#8 →
        (t.faultCause = 0x02#8 ∧ ∃ x y r g b, i = .setPixel x y r g b ∧
          ((shape s.rot).1 ≤ x.toNat ∨ (shape s.rot).2 ≤ y.toNat)) ∨
        (t.faultCause = 0x03#8 ∧ sends i = true ∧ s.life ≠ .active) ∨
        (t.faultCause = 0x04#8 ∧ s.life = .active ∧ ∃ code, i = .setBrightness code ∧ 63 < code.toNat) ∨
        (t.faultCause = 0x05#8 ∧ sends i = true ∧ s.life = .active ∧ WriteResult.fail ∈ s.answers)))

/-- R88: a step from a faulted state leaves it as it is (the DSB waits) or is the beginning of a reset, which sets
FAULT_CAUSE and FAULT_REQ to 0. The step boundaries are the model's: that a step with nothing to do answers the same state
is log entry 2, that the first step of a reset ends with LIFE = UNINIT and the 16 transfers pending is log entry 3. -/
def Obligations.OnlyResetLeavesTheFaultedState : Prop :=
  ∀ s t : State, s.faultCause ≠ 0#8 → step s = .next t →
    t = s ∨
    (∃ rest, s.seq = [] ∧ s.host = .reset :: rest ∧ t.host = rest ∧
      t.faultCause = 0#8 ∧ t.faultReq = 0#64 ∧ t.life = .uninit ∧ t.seq = resetSequence s.cfg)

/-- R19, R102: with LIFE = SHUTDOWN no instruction changes LIFE; a request that sends faults with NOT_ACTIVE; and no
request sends anything. -/
def Obligations.ShutdownIsTerminal : Prop :=
  ∀ (s : State) (i : Instr), s.life = .shutdown → s.faultCause = 0#8 →
    (∀ t, exec i s = .next t → t.life = .shutdown) ∧
    (sends i = true → ∃ t, exec i s = .next t ∧ t.faultCause = 0x03#8 ∧ t.trace = s.trace ∧ t.resp = s.resp) ∧
    (isRequest i = true → ∃ t, exec i s = .next t ∧ t.trace = s.trace ∧ t.cs = s.cs ∧ t.answers = s.answers)

/-- R17 (the column "written by"), R18, R19, R20, R22: an instruction that writes ROT, LIFE, PBUF or RESP is one the spec
lets write it. -/
def Obligations.OnlyNamedRequestsWriteState : Prop :=
  ∀ (i : Instr) (s t : State), exec i s = .next t →
    (t.rot ≠ s.rot → ∃ deg, i = .setRotation deg ∧ deg ∈ [0#16, 90#16, 180#16, 270#16]) ∧
    (t.life ≠ s.life → i = .shutdown ∧ s.life = .active ∧ t.life = .shutdown ∧ t.faultCause = 0#8) ∧
    (t.pbuf ≠ s.pbuf → (∃ x y r g b, i = .setPixel x y r g b) ∨ (∃ r g b, i = .setAll r g b) ∨ i = .clear) ∧
    (t.resp ≠ s.resp → isRequest i = true ∧ t.faultCause = 0#8) ∧
    (t.trace ≠ s.trace → sends i = true ∨ isRequest i = false) ∧
    t.host = s.host

/-- R48, R20: a request that completes writes RESP: STATUS in [31:24], 0 in [23:16], the shape of GET_SHAPE in [15:0] and 0
there for every other request; INVALID_ROTATION only from SET_ROTATION. A request that faults leaves RESP. -/
def Obligations.ResponseWordLayout : Prop :=
  ∀ (i : Instr) (s t : State), isRequest i = true → exec i s = .next t →
    (t.faultCause ≠ 0#8 → t.resp = s.resp) ∧
    (t.faultCause = 0#8 →
      t.resp.extractLsb' 16 8 = 0#8 ∧
      (t.resp.extractLsb' 24 8 = 0x00#8 ∨
        (t.resp.extractLsb' 24 8 = 0x01#8 ∧
          ∃ deg, i = .setRotation deg ∧ deg ∉ [0#16, 90#16, 180#16, 270#16])) ∧
      (i ≠ .getShape → t.resp.extractLsb' 0 16 = 0#16) ∧
      (i = .getShape →
        (t.resp.extractLsb' 8 8).toNat = (shape s.rot).1 ∧ (t.resp.extractLsb' 0 8).toNat = (shape s.rot).2))

/-! ## Invariants of every step -/

/-- R23: in every slot bits [31:22], [15:14] and [7:6] are 0, after reset and after every step from a state where they
are. -/
def Obligations.PixelBufferKeepsLaneForm : Prop :=
  (∀ i : Fin 119, State.reset.pbuf[i].extractLsb' 22 10 = 0#10 ∧ State.reset.pbuf[i].extractLsb' 14 2 = 0#2 ∧
    State.reset.pbuf[i].extractLsb' 6 2 = 0#2) ∧
  (∀ s t : State,
    (∀ i : Fin 119, s.pbuf[i].extractLsb' 22 10 = 0#10 ∧ s.pbuf[i].extractLsb' 14 2 = 0#2 ∧
      s.pbuf[i].extractLsb' 6 2 = 0#2) →
    step s = .next t →
    ∀ i : Fin 119, t.pbuf[i].extractLsb' 22 10 = 0#10 ∧ t.pbuf[i].extractLsb' 14 2 = 0#2 ∧
      t.pbuf[i].extractLsb' 6 2 = 0#2)

/-- R25: nothing removes an entry of TRACE: every step appends some transactions or none, and each holds at least one
byte. -/
def Obligations.TraceOnlyGrows : Prop :=
  ∀ s t : State, step s = .next t → ∃ out, t.trace = s.trace ++ out ∧ ∀ x ∈ out, x.bytes ≠ []

/-- R41, R17: no step writes the configuration, so the transfer frame table is the same for every SHOW. -/
def Obligations.ConfigurationIsNeverWritten : Prop :=
  ∀ s t : State, step s = .next t → t.cfg = s.cfg

/-- The invariant of a run (R9, R19, R21, R23, R24, R48, R50, R83, R96) is kept by every step. -/
def Obligations.EveryStepKeepsInvariant : Prop :=
  ∀ s t : State, s.Inv → step s = .next t → t.Inv

/-- The invariant holds in the state after a reset that completes, for every well-formed configuration and every earlier
trace of legal transactions; `State.reset` is that state for the configuration of the machine. -/
def Obligations.InvariantHoldsAfterReset : Prop :=
  State.reset = State.afterReset Config.hw [] ∧
  (∀ (c : WellFormedConfig) (earlier : List Transaction), (∀ x ∈ earlier, x.legal c.config = true) →
    (State.afterReset c earlier).Inv)

/-- R12: a request, or a transfer of a reset, of a run is done, faults or has no step while faulted; none is refused, since
the one refusal of the rule is the construction of a machine from an ill-formed configuration. -/
def Obligations.NoStepOfARunIsRefused : Prop :=
  ∀ s : State, s.Inv → (∃ t, step s = .next t) ∨ (step s = .fault .dsbFaulted ∧ s.faultCause ≠ 0#8)

/-! ## Reset -/

/-- R96, R97: a reset of any state with a transport that delivers its 18 writes runs to its
end in 17 steps (one for the event and one for each transfer, log entry 3): every register has its reset value and TRACE has gained the 16 transactions. -/
def Obligations.ResetRunsItsSequence : Prop :=
  ∀ (s : State) (rest : List HostEvent), s.seq = [] → s.host = .reset :: rest → s.Reliable 18 →
    steps 17 s = .next { s with
      rot := .deg0, life := .active, pbuf := Vector.replicate 119 0#32, resp := 0#32, faultCause := 0#8,
      faultReq := 0#64, cs := ⟨false, false⟩, host := rest, answers := s.answers.drop 18,
      trace := s.trace ++ [Panel.panel0, Panel.panel1].flatMap fun p =>
        [ ⟨p, 0xCC#8 :: s.cfg.pSoftReset⟩, ⟨p, [0x37#8, s.cfg.initBrightness]⟩, ⟨p, 0x20#8 :: s.cfg.pScrollOff⟩,
          ⟨p, 0x35#8 :: s.cfg.pSysOff⟩, ⟨p, [0x80#8, s.cfg.wdAddr] ++ List.replicate s.cfg.frameBytes 0#8⟩,
          ⟨p, 0x41#8 :: s.cfg.pComOn⟩, ⟨p, 0x42#8 :: s.cfg.pRowOn⟩, ⟨p, 0x35#8 :: s.cfg.pSysOn⟩ ] }

/-- R9: the checks are those of the rule, and they give FRAME_BYTES ≥ 3 × max(SPLIT, 119 − SPLIT), with neither run longer
than the 256 values of a byte; the construction of a machine from a configuration that fails one is refused, from any
other it gives a machine with that configuration, and no state holds an ill-formed one. -/
def Obligations.ResetRefusesIllFormedConfiguration : Prop :=
  (∀ c : Config, c.wellFormed = true ↔
    (0 < c.split ∧ c.split < 119) ∧ 1 ≤ c.frameBytes ∧
    (∀ (i : Fin 119) (l : Fin 3), (c.lut[3 * i.val + l.val]).toNat < c.frameBytes) ∧
    (∀ j k : Fin 357, (j.val < 3 * c.split ↔ k.val < 3 * c.split) → c.lut[j] = c.lut[k] → j = k) ∧
    c.initBrightness.toNat ≤ 63) ∧
  (∀ c : Config, c.wellFormed = true →
    3 * max c.split (119 - c.split) ≤ c.frameBytes ∧ 3 * max c.split (119 - c.split) ≤ 256) ∧
  (∀ c : Config, c.wellFormed = false → build c = .refused .illFormedConfig) ∧
  (∀ c : Config, c.wellFormed = true → ∃ t, build c = .next t ∧ t.cfg = c) ∧
  (∀ s : State, s.cfg.wellFormed = true)

/-- R19, R87, R96: whichever write of a transfer fails during the reset sequence, the second of a display write too, ends
the sequence: Fault(BUS_FAILURE, 0), LIFE stays as it was, the failing transaction leaves no entry and nothing more is
sent. That each transfer of the sequence is a step is the model's (log entry 3). -/
def Obligations.FailedTransferEndsReset : Prop :=
  ∀ (s : State) (t : Transaction) (more : List Transaction) (k : Nat) (rest : List WriteResult),
    s.seq = t :: more → t.legal s.cfg = true → s.faultCause = 0#8 →
    s.answers = List.replicate k .ok ++ .fail :: rest → (k = 0 ∨ (k = 1 ∧ t.bytes.head? = some 0x80#8)) →
    step s = .next { s with
      faultCause := 0x05#8, faultReq := 0#64, seq := [], answers := rest,
      cs := ⟨Config.freeLine s.draws, Config.freeLine (s.draws + 1)⟩, draws := s.draws + 2 }

/-! ## The host's side -/

/-- R79 for rational levels (log entry 11): BrightnessCode is the integer nearest level × 63, the even one at a halfway
value; a level outside [0, 1] has no code. -/
def Obligations.BrightnessCodeRoundsHalfEven : Prop :=
  brightnessCode 1 = some 63#8 ∧ brightnessCode 0 = some 0#8 ∧
  (∀ level : Rat, 0 ≤ level → level ≤ 1 → ∃ n : Nat, n ≤ 63 ∧ brightnessCode level = some (BitVec.ofNat 8 n) ∧
    |level * 63 - n| ≤ 1 / 2 ∧ (|level * 63 - n| = 1 / 2 → n % 2 = 0)) ∧
  (∀ level : Rat, level < 0 ∨ 1 < level → brightnessCode level = none)

/-- R79: every real level in [0, 1] has exactly one code, at most 63; no integer is nearer to level × 63, and at a halfway
value the code is even; a level outside [0, 1] has none. On rational levels it is the function the assembler evaluates. -/
def Obligations.EveryRealLevelHasOneCode : Prop :=
  IsBrightnessCode 1 63#8 ∧ IsBrightnessCode 0 0#8 ∧
  (∀ level : ℝ, 0 ≤ level → level ≤ 1 → ∃ code, IsBrightnessCode level code ∧
    ∀ other, IsBrightnessCode level other → other = code) ∧
  (∀ (level : ℝ) (code : Byte), IsBrightnessCode level code →
    0 ≤ level ∧ level ≤ 1 ∧ code.toNat ≤ 63 ∧ (∀ m : ℤ, |level * 63 - code.toNat| ≤ |level * 63 - m|) ∧
    ((∃ m : ℤ, level * 63 = m + 1 / 2) → code.toNat % 2 = 0)) ∧
  (∀ (level : Rat) (code : Byte), brightnessCode level = some code ↔ IsBrightnessCode (level : ℝ) code)

/-- R53, R54: the assembler gives SET_PIXEL, SET_ALL, SET_ROTATION and SET_BRIGHTNESS for operands that fit their fields,
legal or not, and refuses one that does not fit; SET_BRIGHTNESS_F is SET_BRIGHTNESS of the code of its level. -/
def Obligations.AssemblerRefusesUnfitOperands : Prop :=
  (∀ x y r g b : Nat, Assembler.request ['S', 'E', 'T', '_', 'P', 'I', 'X', 'E', 'L'] [x, y, r, g, b] =
    if x < 256 ∧ y < 256 ∧ r < 256 ∧ g < 256 ∧ b < 256 then
      .ok (.setPixel (BitVec.ofNat 8 x) (BitVec.ofNat 8 y) (BitVec.ofNat 8 r) (BitVec.ofNat 8 g) (BitVec.ofNat 8 b))
    else .error .doesNotFit) ∧
  (∀ r g b : Nat, Assembler.request ['S', 'E', 'T', '_', 'A', 'L', 'L'] [r, g, b] =
    if r < 256 ∧ g < 256 ∧ b < 256 then .ok (.setAll (BitVec.ofNat 8 r) (BitVec.ofNat 8 g) (BitVec.ofNat 8 b))
    else .error .doesNotFit) ∧
  (∀ deg : Nat, Assembler.request ['S', 'E', 'T', '_', 'R', 'O', 'T', 'A', 'T', 'I', 'O', 'N'] [deg] =
    if deg < 65536 then .ok (.setRotation (BitVec.ofNat 16 deg)) else .error .doesNotFit) ∧
  (∀ code : Nat,
    Assembler.request ['S', 'E', 'T', '_', 'B', 'R', 'I', 'G', 'H', 'T', 'N', 'E', 'S', 'S'] [code] =
      if code < 256 then .ok (.setBrightness (BitVec.ofNat 8 code)) else .error .doesNotFit) ∧
  (∀ (level : Rat) (code : Byte), brightnessCode level = some code →
    Assembler.brightnessF level = .ok (.setBrightness code))
end

