-- ==== Sys2Proof/Laws/Brightness.lean ====
section
/-! SUPPORT. Rounding: the rule's value is unique, and what the evaluated division does (43_transmitter.md rule R79). -/

namespace Sys2Proof.Machine

theorem roundsHalfEven_unique {v : ℝ} {n m : Nat} (hn : RoundsHalfEven v n) (hm : RoundsHalfEven v m) : n = m := by
  obtain ⟨h1, h2⟩ := hn
  obtain ⟨h3, h4⟩ := hm
  rw [abs_le] at h1 h3
  wlog h : n ≤ m generalizing n m
  · exact (this h3 h4 h1 h2 (Nat.le_of_not_le h)).symm
  by_contra hne
  have hlt : (n : ℝ) + 1 ≤ m := by exact_mod_cast lt_of_le_of_ne h hne
  have e1 : v - n = 1 / 2 := by linarith
  have e2 : v - m = -(1 / 2) := by linarith
  have p1 := h2 (by rw [e1]; norm_num)
  have p2 := h4 (by rw [e2]; norm_num)
  have hm : (m : ℝ) = n + 1 := by linarith
  have : m = n + 1 := by exact_mod_cast hm
  omega

/-- The quotient is within a half of a / b, and even when exactly a half away. -/
theorem divHalfEven_near (a : Nat) {b : Nat} (hb : 0 < b) :
    2 * a ≤ 2 * (divHalfEven a b * b) + b ∧ 2 * (divHalfEven a b * b) ≤ 2 * a + b ∧
    (2 * a = 2 * (divHalfEven a b * b) + b ∨ 2 * (divHalfEven a b * b) = 2 * a + b → divHalfEven a b % 2 = 0) := by
  have h := Nat.div_add_mod a b
  have hm := Nat.mod_lt a hb
  unfold divHalfEven
  generalize a / b = q at *
  generalize a % b = r at *
  rw [Nat.mul_comm b q] at h
  split_ifs <;> (try rw [Nat.add_mul, Nat.one_mul]) <;> refine ⟨?_, ?_, ?_⟩ <;> omega

end Sys2Proof.Machine
end

