-- ==== Sys2Proof/Laws/State.lean ====
section
/-! SUPPORT. One lemma for each field of State under each update that a shared operation makes, all true by unfolding, so that no
later proof unfolds a record update. -/

namespace Sys2Proof.Machine

variable (s : State)

/-- A state holds no ill-formed configuration (R9). -/
@[simp] theorem cfg_wellFormed : s.cfg.wellFormed = true := s.built.wellFormed

/-! ## respond -/

@[simp] theorem respond_rot (st : Status) (r : BitVec 16) : (respond st r s).rot = s.rot := rfl
@[simp] theorem respond_life (st : Status) (r : BitVec 16) : (respond st r s).life = s.life := rfl
@[simp] theorem respond_pbuf (st : Status) (r : BitVec 16) : (respond st r s).pbuf = s.pbuf := rfl
@[simp] theorem respond_resp (st : Status) (r : BitVec 16) : (respond st r s).resp = response st r := rfl
@[simp] theorem respond_faultCause (st : Status) (r : BitVec 16) : (respond st r s).faultCause = s.faultCause := rfl
@[simp] theorem respond_faultReq (st : Status) (r : BitVec 16) : (respond st r s).faultReq = s.faultReq := rfl
@[simp] theorem respond_cs (st : Status) (r : BitVec 16) : (respond st r s).cs = s.cs := rfl
@[simp] theorem respond_trace (st : Status) (r : BitVec 16) : (respond st r s).trace = s.trace := rfl
@[simp] theorem respond_built (st : Status) (r : BitVec 16) : (respond st r s).built = s.built := rfl
@[simp] theorem respond_cfg (st : Status) (r : BitVec 16) : (respond st r s).cfg = s.cfg := rfl
@[simp] theorem respond_seq (st : Status) (r : BitVec 16) : (respond st r s).seq = s.seq := rfl
@[simp] theorem respond_host (st : Status) (r : BitVec 16) : (respond st r s).host = s.host := rfl
@[simp] theorem respond_answers (st : Status) (r : BitVec 16) : (respond st r s).answers = s.answers := rfl
@[simp] theorem respond_draws (st : Status) (r : BitVec 16) : (respond st r s).draws = s.draws := rfl

/-! ## raise -/

@[simp] theorem raise_rot (c : Cause) (w : RequestWord) : (raise c w s).rot = s.rot := rfl
@[simp] theorem raise_life (c : Cause) (w : RequestWord) : (raise c w s).life = s.life := rfl
@[simp] theorem raise_pbuf (c : Cause) (w : RequestWord) : (raise c w s).pbuf = s.pbuf := rfl
@[simp] theorem raise_resp (c : Cause) (w : RequestWord) : (raise c w s).resp = s.resp := rfl
@[simp] theorem raise_faultCause (c : Cause) (w : RequestWord) : (raise c w s).faultCause = c.code := rfl
@[simp] theorem raise_faultReq (c : Cause) (w : RequestWord) : (raise c w s).faultReq = w := rfl
@[simp] theorem raise_cs (c : Cause) (w : RequestWord) : (raise c w s).cs = s.cs := rfl
@[simp] theorem raise_trace (c : Cause) (w : RequestWord) : (raise c w s).trace = s.trace := rfl
@[simp] theorem raise_built (c : Cause) (w : RequestWord) : (raise c w s).built = s.built := rfl
@[simp] theorem raise_cfg (c : Cause) (w : RequestWord) : (raise c w s).cfg = s.cfg := rfl
@[simp] theorem raise_seq (c : Cause) (w : RequestWord) : (raise c w s).seq = [] := rfl
@[simp] theorem raise_host (c : Cause) (w : RequestWord) : (raise c w s).host = s.host := rfl
@[simp] theorem raise_answers (c : Cause) (w : RequestWord) : (raise c w s).answers = s.answers := rfl
@[simp] theorem raise_draws (c : Cause) (w : RequestWord) : (raise c w s).draws = s.draws := rfl

/-! ## storePixel -/

@[simp] theorem storePixel_rot (o : Nat) (v : Pixel) : (storePixel o v s).rot = s.rot := rfl
@[simp] theorem storePixel_life (o : Nat) (v : Pixel) : (storePixel o v s).life = s.life := rfl
@[simp] theorem storePixel_pbuf (o : Nat) (v : Pixel) : (storePixel o v s).pbuf = s.pbuf.setIfInBounds o v := rfl
@[simp] theorem storePixel_resp (o : Nat) (v : Pixel) : (storePixel o v s).resp = s.resp := rfl
@[simp] theorem storePixel_faultCause (o : Nat) (v : Pixel) : (storePixel o v s).faultCause = s.faultCause := rfl
@[simp] theorem storePixel_faultReq (o : Nat) (v : Pixel) : (storePixel o v s).faultReq = s.faultReq := rfl
@[simp] theorem storePixel_cs (o : Nat) (v : Pixel) : (storePixel o v s).cs = s.cs := rfl
@[simp] theorem storePixel_trace (o : Nat) (v : Pixel) : (storePixel o v s).trace = s.trace := rfl
@[simp] theorem storePixel_built (o : Nat) (v : Pixel) : (storePixel o v s).built = s.built := rfl
@[simp] theorem storePixel_cfg (o : Nat) (v : Pixel) : (storePixel o v s).cfg = s.cfg := rfl
@[simp] theorem storePixel_seq (o : Nat) (v : Pixel) : (storePixel o v s).seq = s.seq := rfl
@[simp] theorem storePixel_host (o : Nat) (v : Pixel) : (storePixel o v s).host = s.host := rfl
@[simp] theorem storePixel_answers (o : Nat) (v : Pixel) : (storePixel o v s).answers = s.answers := rfl
@[simp] theorem storePixel_draws (o : Nat) (v : Pixel) : (storePixel o v s).draws = s.draws := rfl

/-! ## fillPixels -/

@[simp] theorem fillPixels_rot (v : Pixel) : (fillPixels v s).rot = s.rot := rfl
@[simp] theorem fillPixels_life (v : Pixel) : (fillPixels v s).life = s.life := rfl
@[simp] theorem fillPixels_pbuf (v : Pixel) : (fillPixels v s).pbuf = Vector.replicate 119 v := rfl
@[simp] theorem fillPixels_resp (v : Pixel) : (fillPixels v s).resp = s.resp := rfl
@[simp] theorem fillPixels_faultCause (v : Pixel) : (fillPixels v s).faultCause = s.faultCause := rfl
@[simp] theorem fillPixels_faultReq (v : Pixel) : (fillPixels v s).faultReq = s.faultReq := rfl
@[simp] theorem fillPixels_cs (v : Pixel) : (fillPixels v s).cs = s.cs := rfl
@[simp] theorem fillPixels_trace (v : Pixel) : (fillPixels v s).trace = s.trace := rfl
@[simp] theorem fillPixels_built (v : Pixel) : (fillPixels v s).built = s.built := rfl
@[simp] theorem fillPixels_cfg (v : Pixel) : (fillPixels v s).cfg = s.cfg := rfl
@[simp] theorem fillPixels_seq (v : Pixel) : (fillPixels v s).seq = s.seq := rfl
@[simp] theorem fillPixels_host (v : Pixel) : (fillPixels v s).host = s.host := rfl
@[simp] theorem fillPixels_answers (v : Pixel) : (fillPixels v s).answers = s.answers := rfl
@[simp] theorem fillPixels_draws (v : Pixel) : (fillPixels v s).draws = s.draws := rfl

/-! ## setRot -/

@[simp] theorem setRot_rot (r : Rotation) : (setRot r s).rot = r := rfl
@[simp] theorem setRot_life (r : Rotation) : (setRot r s).life = s.life := rfl
@[simp] theorem setRot_pbuf (r : Rotation) : (setRot r s).pbuf = s.pbuf := rfl
@[simp] theorem setRot_resp (r : Rotation) : (setRot r s).resp = s.resp := rfl
@[simp] theorem setRot_faultCause (r : Rotation) : (setRot r s).faultCause = s.faultCause := rfl
@[simp] theorem setRot_faultReq (r : Rotation) : (setRot r s).faultReq = s.faultReq := rfl
@[simp] theorem setRot_cs (r : Rotation) : (setRot r s).cs = s.cs := rfl
@[simp] theorem setRot_trace (r : Rotation) : (setRot r s).trace = s.trace := rfl
@[simp] theorem setRot_built (r : Rotation) : (setRot r s).built = s.built := rfl
@[simp] theorem setRot_cfg (r : Rotation) : (setRot r s).cfg = s.cfg := rfl
@[simp] theorem setRot_seq (r : Rotation) : (setRot r s).seq = s.seq := rfl
@[simp] theorem setRot_host (r : Rotation) : (setRot r s).host = s.host := rfl
@[simp] theorem setRot_answers (r : Rotation) : (setRot r s).answers = s.answers := rfl
@[simp] theorem setRot_draws (r : Rotation) : (setRot r s).draws = s.draws := rfl

/-! ## setLife -/

@[simp] theorem setLife_rot (l : Life) : (setLife l s).rot = s.rot := rfl
@[simp] theorem setLife_life (l : Life) : (setLife l s).life = l := rfl
@[simp] theorem setLife_pbuf (l : Life) : (setLife l s).pbuf = s.pbuf := rfl
@[simp] theorem setLife_resp (l : Life) : (setLife l s).resp = s.resp := rfl
@[simp] theorem setLife_faultCause (l : Life) : (setLife l s).faultCause = s.faultCause := rfl
@[simp] theorem setLife_faultReq (l : Life) : (setLife l s).faultReq = s.faultReq := rfl
@[simp] theorem setLife_cs (l : Life) : (setLife l s).cs = s.cs := rfl
@[simp] theorem setLife_trace (l : Life) : (setLife l s).trace = s.trace := rfl
@[simp] theorem setLife_built (l : Life) : (setLife l s).built = s.built := rfl
@[simp] theorem setLife_cfg (l : Life) : (setLife l s).cfg = s.cfg := rfl
@[simp] theorem setLife_seq (l : Life) : (setLife l s).seq = s.seq := rfl
@[simp] theorem setLife_host (l : Life) : (setLife l s).host = s.host := rfl
@[simp] theorem setLife_answers (l : Life) : (setLife l s).answers = s.answers := rfl
@[simp] theorem setLife_draws (l : Life) : (setLife l s).draws = s.draws := rfl

/-! ## csAssert -/

@[simp] theorem csAssert_rot (p : Panel) : (csAssert p s).rot = s.rot := rfl
@[simp] theorem csAssert_life (p : Panel) : (csAssert p s).life = s.life := rfl
@[simp] theorem csAssert_pbuf (p : Panel) : (csAssert p s).pbuf = s.pbuf := rfl
@[simp] theorem csAssert_resp (p : Panel) : (csAssert p s).resp = s.resp := rfl
@[simp] theorem csAssert_faultCause (p : Panel) : (csAssert p s).faultCause = s.faultCause := rfl
@[simp] theorem csAssert_faultReq (p : Panel) : (csAssert p s).faultReq = s.faultReq := rfl
@[simp] theorem csAssert_cs (p : Panel) : (csAssert p s).cs = s.cs.drive true p := rfl
@[simp] theorem csAssert_trace (p : Panel) : (csAssert p s).trace = s.trace := rfl
@[simp] theorem csAssert_built (p : Panel) : (csAssert p s).built = s.built := rfl
@[simp] theorem csAssert_cfg (p : Panel) : (csAssert p s).cfg = s.cfg := rfl
@[simp] theorem csAssert_seq (p : Panel) : (csAssert p s).seq = s.seq := rfl
@[simp] theorem csAssert_host (p : Panel) : (csAssert p s).host = s.host := rfl
@[simp] theorem csAssert_answers (p : Panel) : (csAssert p s).answers = s.answers := rfl
@[simp] theorem csAssert_draws (p : Panel) : (csAssert p s).draws = s.draws := rfl

/-! ## csDeassert -/

@[simp] theorem csDeassert_rot (p : Panel) : (csDeassert p s).rot = s.rot := rfl
@[simp] theorem csDeassert_life (p : Panel) : (csDeassert p s).life = s.life := rfl
@[simp] theorem csDeassert_pbuf (p : Panel) : (csDeassert p s).pbuf = s.pbuf := rfl
@[simp] theorem csDeassert_resp (p : Panel) : (csDeassert p s).resp = s.resp := rfl
@[simp] theorem csDeassert_faultCause (p : Panel) : (csDeassert p s).faultCause = s.faultCause := rfl
@[simp] theorem csDeassert_faultReq (p : Panel) : (csDeassert p s).faultReq = s.faultReq := rfl
@[simp] theorem csDeassert_cs (p : Panel) : (csDeassert p s).cs = s.cs.drive false p := rfl
@[simp] theorem csDeassert_trace (p : Panel) : (csDeassert p s).trace = s.trace := rfl
@[simp] theorem csDeassert_built (p : Panel) : (csDeassert p s).built = s.built := rfl
@[simp] theorem csDeassert_cfg (p : Panel) : (csDeassert p s).cfg = s.cfg := rfl
@[simp] theorem csDeassert_seq (p : Panel) : (csDeassert p s).seq = s.seq := rfl
@[simp] theorem csDeassert_host (p : Panel) : (csDeassert p s).host = s.host := rfl
@[simp] theorem csDeassert_answers (p : Panel) : (csDeassert p s).answers = s.answers := rfl
@[simp] theorem csDeassert_draws (p : Panel) : (csDeassert p s).draws = s.draws := rfl

/-! ## record -/

@[simp] theorem record_rot (p : Panel) (bs : List Byte) : (record p bs s).rot = s.rot := rfl
@[simp] theorem record_life (p : Panel) (bs : List Byte) : (record p bs s).life = s.life := rfl
@[simp] theorem record_pbuf (p : Panel) (bs : List Byte) : (record p bs s).pbuf = s.pbuf := rfl
@[simp] theorem record_resp (p : Panel) (bs : List Byte) : (record p bs s).resp = s.resp := rfl
@[simp] theorem record_faultCause (p : Panel) (bs : List Byte) : (record p bs s).faultCause = s.faultCause := rfl
@[simp] theorem record_faultReq (p : Panel) (bs : List Byte) : (record p bs s).faultReq = s.faultReq := rfl
@[simp] theorem record_cs (p : Panel) (bs : List Byte) : (record p bs s).cs = s.cs := rfl
@[simp] theorem record_trace (p : Panel) (bs : List Byte) : (record p bs s).trace = s.trace ++ [⟨p, bs⟩] := rfl
@[simp] theorem record_built (p : Panel) (bs : List Byte) : (record p bs s).built = s.built := rfl
@[simp] theorem record_cfg (p : Panel) (bs : List Byte) : (record p bs s).cfg = s.cfg := rfl
@[simp] theorem record_seq (p : Panel) (bs : List Byte) : (record p bs s).seq = s.seq := rfl
@[simp] theorem record_host (p : Panel) (bs : List Byte) : (record p bs s).host = s.host := rfl
@[simp] theorem record_answers (p : Panel) (bs : List Byte) : (record p bs s).answers = s.answers := rfl
@[simp] theorem record_draws (p : Panel) (bs : List Byte) : (record p bs s).draws = s.draws := rfl

/-! ## busFailure -/

@[simp] theorem busFailure_rot (w : RequestWord) : (busFailure w s).rot = s.rot := rfl
@[simp] theorem busFailure_life (w : RequestWord) : (busFailure w s).life = s.life := rfl
@[simp] theorem busFailure_pbuf (w : RequestWord) : (busFailure w s).pbuf = s.pbuf := rfl
@[simp] theorem busFailure_resp (w : RequestWord) : (busFailure w s).resp = s.resp := rfl
@[simp] theorem busFailure_faultCause (w : RequestWord) : (busFailure w s).faultCause = Cause.busFailure.code := rfl
@[simp] theorem busFailure_faultReq (w : RequestWord) : (busFailure w s).faultReq = w := rfl
@[simp] theorem busFailure_cs (w : RequestWord) : (busFailure w s).cs = ⟨Config.freeLine s.draws, Config.freeLine (s.draws + 1)⟩ := rfl
@[simp] theorem busFailure_trace (w : RequestWord) : (busFailure w s).trace = s.trace := rfl
@[simp] theorem busFailure_built (w : RequestWord) : (busFailure w s).built = s.built := rfl
@[simp] theorem busFailure_cfg (w : RequestWord) : (busFailure w s).cfg = s.cfg := rfl
@[simp] theorem busFailure_seq (w : RequestWord) : (busFailure w s).seq = [] := rfl
@[simp] theorem busFailure_host (w : RequestWord) : (busFailure w s).host = s.host := rfl
@[simp] theorem busFailure_answers (w : RequestWord) : (busFailure w s).answers = s.answers := rfl
@[simp] theorem busFailure_draws (w : RequestWord) : (busFailure w s).draws = s.draws + 2 := rfl

/-! ## beginReset -/

@[simp] theorem beginReset_rot : (beginReset s).rot = .deg0 := rfl
@[simp] theorem beginReset_life : (beginReset s).life = .uninit := rfl
@[simp] theorem beginReset_pbuf : (beginReset s).pbuf = Vector.replicate 119 0#32 := rfl
@[simp] theorem beginReset_resp : (beginReset s).resp = 0#32 := rfl
@[simp] theorem beginReset_faultCause : (beginReset s).faultCause = 0#8 := rfl
@[simp] theorem beginReset_faultReq : (beginReset s).faultReq = 0#64 := rfl
@[simp] theorem beginReset_cs : (beginReset s).cs = .idle := rfl
@[simp] theorem beginReset_trace : (beginReset s).trace = s.trace := rfl
@[simp] theorem beginReset_built : (beginReset s).built = s.built := rfl
@[simp] theorem beginReset_cfg : (beginReset s).cfg = s.cfg := rfl
@[simp] theorem beginReset_seq : (beginReset s).seq = resetSequence s.cfg := rfl
@[simp] theorem beginReset_host : (beginReset s).host = s.host := rfl
@[simp] theorem beginReset_answers : (beginReset s).answers = s.answers := rfl
@[simp] theorem beginReset_draws : (beginReset s).draws = s.draws := rfl

end Sys2Proof.Machine
end

