-- ==== Sys2Proof/Laws/Ops.lean ====
section
/-! SUPPORT. What the shared operations can do, said once: taking a request, the checks, the transport's writes and the
transactions. -/

namespace Sys2Proof.Machine

/-! ## Outcomes -/

@[simp] theorem andThen_done (s : State) (k : State → Sent) : (Sent.done s).andThen k = k s := rfl
@[simp] theorem andThen_failed (s : State) (k : State → Sent) : (Sent.failed s).andThen k = .failed s := rfl
@[simp] theorem outcome_done (f : State → State) (s : State) : (Sent.done s).outcome f = .next (f s) := rfl
@[simp] theorem outcome_failed (f : State → State) (s : State) : (Sent.failed s).outcome f = .next s := rfl

theorem serve_ready {s : State} (h : s.faultCause = 0#8) (body : State → Result) : serve s body = body s := by
  simp [serve, h]

theorem serve_faulted {s : State} (h : s.faultCause ≠ 0#8) (body : State → Result) :
    serve s body = .fault .dsbFaulted := by
  simp [serve, h]

/-- A request that goes on was taken by a DSB that is not faulted. -/
theorem serve_next {s t : State} {body : State → Result} (h : serve s body = .next t) :
    s.faultCause = 0#8 ∧ body s = .next t := by
  by_cases hc : s.faultCause = 0#8
  · exact ⟨hc, by simpa [serve, hc] using h⟩
  · simp [serve, hc] at h

theorem whenActive_active {s : State} (h : s.life = .active) (w : RequestWord) (body : State → Result) :
    whenActive w s body = body s := by
  simp [whenActive, h]

theorem whenActive_inactive {s : State} (h : s.life ≠ .active) (w : RequestWord) (body : State → Result) :
    whenActive w s body = .next (raise .notActive w s) := by
  simp [whenActive, h]

/-! ## Chip-select lines -/

@[simp] theorem drive_drive (cs : ChipSelect) (u v : Bool) (p : Panel) : (cs.drive u p).drive v p = cs.drive v p := by
  cases p <;> rfl

@[simp] theorem drive_idle (p : Panel) : ChipSelect.idle.drive false p = .idle := by cases p <;> rfl

@[simp] theorem line_drive_same (cs : ChipSelect) (v : Bool) (p : Panel) : (cs.drive v p).line p = v := by
  cases p <;> rfl

theorem line_drive_other (cs : ChipSelect) (v : Bool) {p q : Panel} (h : q ≠ p) :
    (cs.drive v p).line q = cs.line q := by
  cases p <;> cases q <;> first | rfl | exact absurd rfl h

/-- Both lines driven low are both lines low. -/
theorem drive_both (cs : ChipSelect) : (cs.drive false .panel0).drive false .panel1 = .idle := rfl

/-! ## Writes and transactions -/

/-- Listed good answers are good answers. -/
theorem State.Reliable.delivers {n : Nat} {s : State} (h : s.Reliable n) : s.Delivers n :=
  fun _ ha => List.eq_of_mem_replicate (h ▸ ha)

/-- The first `fail` of a list of answers has one place. -/
theorem firstFail_unique {k j : Nat} {rest rest' : List WriteResult}
    (h : List.replicate k WriteResult.ok ++ .fail :: rest = List.replicate j .ok ++ .fail :: rest') :
    k = j ∧ rest = rest' := by
  induction k generalizing j with
  | zero => cases j <;> simp_all [List.replicate_succ]
  | succ k ih =>
    cases j with
    | zero => simp [List.replicate_succ] at h
    | succ j =>
      simp only [List.replicate_succ, List.cons_append, List.cons.injEq, true_and] at h
      exact (ih h).imp (congrArg (· + 1)) id

/-- Answers with a `fail` at place k do not deliver more than k writes. -/
theorem not_delivers_of_fail {s : State} {k n : Nat} {rest : List WriteResult}
    (h : s.answers = List.replicate k .ok ++ .fail :: rest) (hk : k < n) : ¬ s.Delivers n := by
  intro hd
  have hm : WriteResult.fail ∈ s.answers.take n := by
    rw [h, List.take_append, List.length_replicate, show n - k = (n - k - 1) + 1 by omega, List.take_succ_cons]
    simp
  exact absurd (hd _ hm) nofun

/-- The whole effect of n writes: all of them delivered, or the fault of the first that failed. -/
theorem writeAll_cases (w : RequestWord) (chunks : List (List Byte)) (s : State) :
    (s.Delivers chunks.length ∧
      writeAll w chunks s = .done { s with answers := s.answers.drop chunks.length }) ∨
    (∃ k rest, k < chunks.length ∧ s.answers = List.replicate k .ok ++ .fail :: rest ∧
      writeAll w chunks s = .failed (busFailure w { s with answers := rest })) := by
  induction chunks generalizing s with
  | nil => exact .inl ⟨by simp [State.Delivers], rfl⟩
  | cons chunk chunks ih =>
    cases ha : s.answers with
    | nil =>
      have hw : writeAll w (chunk :: chunks) s = writeAll w chunks s := by simp [writeAll, write, ha]
      rcases ih s with ⟨-, h⟩ | ⟨k, rest, -, hk, -⟩
      · exact .inl ⟨by simp [State.Delivers, ha], by rw [hw, h, ha]; simp⟩
      · simp [ha] at hk
    | cons a as =>
      cases a with
      | fail => exact .inr ⟨0, as, by simp, by simp, by simp [writeAll, write, ha]⟩
      | ok =>
        have hw : writeAll w (chunk :: chunks) s = writeAll w chunks { s with answers := as } := by
          simp [writeAll, write, ha]
        rcases ih { s with answers := as } with ⟨hd, h⟩ | ⟨k, rest, hk, hr, h⟩
        · exact .inl ⟨by simpa [State.Delivers, ha] using hd, by rw [hw, h]; simp⟩
        · exact .inr ⟨k + 1, rest, by simpa using hk, by simpa [List.replicate_succ] using hr, by rw [hw, h]⟩

/-- The state after a transaction that was delivered: its entry in TRACE, its line deasserted, its answers used. -/
def State.afterSent (s : State) (p : Panel) (bytes : List Byte) (writes : Nat) : State :=
  { s with trace := s.trace ++ [⟨p, bytes⟩], cs := s.cs.drive false p, answers := s.answers.drop writes }

@[simp] theorem afterSent_rot (s : State) (p : Panel) (bytes : List Byte) (n : Nat) :
    (s.afterSent p bytes n).rot = s.rot := rfl
@[simp] theorem afterSent_life (s : State) (p : Panel) (bytes : List Byte) (n : Nat) :
    (s.afterSent p bytes n).life = s.life := rfl
@[simp] theorem afterSent_pbuf (s : State) (p : Panel) (bytes : List Byte) (n : Nat) :
    (s.afterSent p bytes n).pbuf = s.pbuf := rfl
@[simp] theorem afterSent_resp (s : State) (p : Panel) (bytes : List Byte) (n : Nat) :
    (s.afterSent p bytes n).resp = s.resp := rfl
@[simp] theorem afterSent_faultCause (s : State) (p : Panel) (bytes : List Byte) (n : Nat) :
    (s.afterSent p bytes n).faultCause = s.faultCause := rfl
@[simp] theorem afterSent_faultReq (s : State) (p : Panel) (bytes : List Byte) (n : Nat) :
    (s.afterSent p bytes n).faultReq = s.faultReq := rfl
@[simp] theorem afterSent_cs (s : State) (p : Panel) (bytes : List Byte) (n : Nat) :
    (s.afterSent p bytes n).cs = s.cs.drive false p := rfl
@[simp] theorem afterSent_trace (s : State) (p : Panel) (bytes : List Byte) (n : Nat) :
    (s.afterSent p bytes n).trace = s.trace ++ [⟨p, bytes⟩] := rfl
@[simp] theorem afterSent_built (s : State) (p : Panel) (bytes : List Byte) (n : Nat) :
    (s.afterSent p bytes n).built = s.built := rfl
@[simp] theorem afterSent_cfg (s : State) (p : Panel) (bytes : List Byte) (n : Nat) :
    (s.afterSent p bytes n).cfg = s.cfg := rfl
@[simp] theorem afterSent_seq (s : State) (p : Panel) (bytes : List Byte) (n : Nat) :
    (s.afterSent p bytes n).seq = s.seq := rfl
@[simp] theorem afterSent_host (s : State) (p : Panel) (bytes : List Byte) (n : Nat) :
    (s.afterSent p bytes n).host = s.host := rfl
@[simp] theorem afterSent_answers (s : State) (p : Panel) (bytes : List Byte) (n : Nat) :
    (s.afterSent p bytes n).answers = s.answers.drop n := rfl
@[simp] theorem afterSent_draws (s : State) (p : Panel) (bytes : List Byte) (n : Nat) :
    (s.afterSent p bytes n).draws = s.draws := rfl

/-- The whole effect of a transaction (R76): delivered, or the bus failure of the write that failed. -/
theorem transact_cases (w : RequestWord) (p : Panel) (chunks : List (List Byte)) (s : State) :
    (s.Delivers chunks.length ∧ transact w p chunks s = .done (s.afterSent p chunks.flatten chunks.length)) ∨
    (∃ k rest, k < chunks.length ∧ s.answers = List.replicate k .ok ++ .fail :: rest ∧
      transact w p chunks s = .failed (busFailure w { s with answers := rest })) := by
  rcases writeAll_cases w chunks (csAssert p s) with ⟨hd, h⟩ | ⟨k, rest, hk, hr, h⟩
  · refine .inl ⟨hd, ?_⟩
    rw [transact, h, andThen_done, State.afterSent, record, csDeassert]
    simp
  · exact .inr ⟨k, rest, hk, hr, by rw [transact, h]; rfl⟩

theorem transact_delivered {w : RequestWord} {p : Panel} {chunks : List (List Byte)} {s : State}
    (h : s.Delivers chunks.length) :
    transact w p chunks s = .done (s.afterSent p chunks.flatten chunks.length) := by
  rcases transact_cases w p chunks s with ⟨-, e⟩ | ⟨k, rest, hk, hr, -⟩
  · exact e
  · exact absurd h (not_delivers_of_fail hr hk)

/-- XFER under a write that is answered ok (R77). -/
theorem xfer_delivered {w : RequestWord} {p : Panel} {cmd : Command} {data : List Byte} {s : State}
    (h : s.Delivers 1) : xfer w p cmd data s = .done (s.afterSent p (commandBytes cmd data) 1) := by
  simpa [xfer] using transact_delivered (w := w) (p := p) (chunks := [commandBytes cmd data]) h

/-- A display write under two writes that are answered ok (R78). -/
theorem displayWrite_delivered {w : RequestWord} {p : Panel} {a : Byte} {frame : List Byte} {s : State}
    (h : s.Delivers 2) : displayWrite w p a frame s = .done (s.afterSent p (displayBytes a frame) 2) := by
  simpa [displayWrite, displayBytes] using
    transact_delivered (w := w) (p := p) (chunks := [[Command.writeDisplay.byte, a], frame]) h

/-- Good answers stay good when some are used. -/
theorem State.Delivers.drop {m n : Nat} {s t : State} (h : s.Delivers (m + n)) (ht : t.answers = s.answers.drop m) :
    t.Delivers n := by
  intro a ha
  rw [ht, List.take_drop] at ha
  exact h a (List.mem_of_mem_drop ha)

theorem State.Delivers.mono {m n : Nat} {s : State} (h : s.Delivers n) (hmn : m ≤ n) : s.Delivers m := by
  intro a ha
  exact h a (List.take_subset_take_left _ hmn ha)

/-! ## Reset -/

theorem build_illFormed {c : Config} (h : c.wellFormed = false) : build c = .refused .illFormedConfig := by
  simp [build, h]

theorem build_wellFormed {c : Config} (h : c.wellFormed = true) : build c = .next (State.powerOn ⟨c, h⟩) := dif_pos h

theorem endReset_last {s : State} (hs : s.seq = []) (hc : s.faultCause = 0#8) :
    endReset s = { s with life := .active } := by
  simp [endReset, hs, hc]

theorem endReset_more {s : State} (hs : s.seq ≠ []) : endReset s = s := by
  simp [endReset, hs]

theorem endReset_faulted {s : State} (hc : s.faultCause ≠ 0#8) : endReset s = s := by
  simp [endReset, hc]

end Sys2Proof.Machine
end

