-- ==== Sys2Proof/Laws/Memory.lean ====
section
/-! SUPPORT. The pixel buffer: every operation keeps its form (10_state.md rule R23), and reading after writing. -/

namespace Sys2Proof.Machine

/-- A packed pixel has the form of R23 (R56). -/
theorem pack_legal (r g b : BitVec 6) : pixelLegal (pack r g b) = true := by
  have h : pack r g b &&& 0xFFC0C0C0#32 = 0#32 := by
    apply BitVec.eq_of_getLsbD_eq
    intro i hi
    have hr := r.getLsbD_of_ge (i - 16)
    have hg := g.getLsbD_of_ge (i - 8)
    have hb := b.getLsbD_of_ge i
    interval_cases i <;> simp_all [pack]
  simp [pixelLegal, h]

theorem wf_iff (m : Memory) : Memory.wf m = true ↔ ∀ i (h : i < 119), pixelLegal m[i] = true := by
  simp [Memory.wf]

/-- A write of a legal pixel keeps the form. -/
theorem wf_setIfInBounds {m : Memory} {o : Nat} {v : Pixel} (hm : Memory.wf m = true) (hv : pixelLegal v = true) :
    Memory.wf (m.setIfInBounds o v) = true := by
  rw [wf_iff] at *
  intro i h
  rw [Vector.getElem_setIfInBounds]
  split
  · exact hv
  · exact hm i h

/-- A fill with a legal pixel has the form. -/
theorem wf_replicate {v : Pixel} (hv : pixelLegal v = true) : Memory.wf (Vector.replicate 119 v) = true := by
  rw [wf_iff]
  intro i h
  simpa using hv

theorem wf_storePixel {s : State} {o : Nat} {v : Pixel} (hs : Memory.wf s.pbuf = true) (hv : pixelLegal v = true) :
    Memory.wf (storePixel o v s).pbuf = true := wf_setIfInBounds hs hv

theorem wf_fillPixels {s : State} {v : Pixel} (hv : pixelLegal v = true) :
    Memory.wf (fillPixels v s).pbuf = true := wf_replicate hv

theorem wf_reset : Memory.wf State.reset.pbuf = true := wf_replicate (by decide)

/-- Reading the slot just written. -/
theorem loadPixel_storePixel_same {s : State} {o : Nat} (v : Pixel) (h : o < 119) :
    loadPixel (storePixel o v s) o = some v := by
  simp [loadPixel, h]

/-- Reading any other slot. -/
theorem loadPixel_storePixel_other {s : State} {o a : Nat} (v : Pixel) (h : a ≠ o) :
    loadPixel (storePixel o v s) a = loadPixel s a := by
  simp [loadPixel, Ne.symm h]

theorem loadPixel_fillPixels {s : State} {a : Nat} (v : Pixel) (h : a < 119) :
    loadPixel (fillPixels v s) a = some v := by
  simp [loadPixel, h]

/-! ## The frame scratch -/

@[simp] theorem putPixel_length (c : Config) (m : Memory) (fb : List Byte) (i : Fin 119) :
    (putPixel c m fb i).length = fb.length := by
  simp [putPixel]

theorem foldl_putPixel_length (c : Config) (m : Memory) (is : List (Fin 119)) (fb : List Byte) :
    (is.foldl (putPixel c m) fb).length = fb.length := by
  induction is generalizing fb with
  | nil => rfl
  | cons i is ih => simp [ih]

/-- A frame is FRAME_BYTES bytes long (R72). -/
@[simp] theorem serialize_length (c : Config) (m : Memory) (p : Panel) :
    (serialize c m p).length = c.frameBytes := by
  simp [serialize, foldl_putPixel_length]

end Sys2Proof.Machine
end

