-- ==== Sys2Proof/Laws/PerInstr.lean ====
section
/-! SUPPORT. Statements made for each constructor of Instr. Family Opcode: the first field of an instruction's encoding is
the code of its row in the opcode table (30_encoding.md rules R43, R46, R49). -/

namespace Sys2Proof.Laws.Opcode

/-- The code of an instruction's row: OPC of a request, the command byte of a transaction. -/
def code : Instr → Byte
  | .setPixel _ _ _ _ _ => 0x01#8
  | .setAll _ _ _ => 0x02#8
  | .clear => 0x03#8
  | .setRotation _ => 0x04#8
  | .getShape => 0x05#8
  | .setBrightness _ => 0x06#8
  | .showFrame => 0x07#8
  | .shutdown => 0x08#8
  | .cmdSoftReset _ _ => 0xCC#8
  | .cmdGlobalBrightness _ _ => 0x37#8
  | .cmdComPinCtrl _ _ => 0x41#8
  | .cmdRowPinCtrl _ _ => 0x42#8
  | .cmdWriteDisplay _ _ _ => 0x80#8
  | .cmdReadDisplay _ _ => 0x81#8
  | .cmdSystemCtrl _ _ => 0x35#8
  | .cmdScrollCtrl _ _ => 0x20#8

/-- The first field of an encoding: OPC of a word, the first byte of a transaction. -/
def first : Fetch → Option Byte
  | .request w => some (opcField w)
  | .transfer _ bytes => bytes.head?

/-- The encoding of an instruction begins with the code of its row. -/
def Statement (i : Instr) : Prop := first (encode i) = some (code i)

theorem setPixel (x y r g b : Byte) : Statement (.setPixel x y r g b) := by
  simp only [Statement, encode, first, code, wordSetPixel, opcField, field, place]
  congr 1
  apply BitVec.eq_of_getLsbD_eq
  intro i hi
  interval_cases i <;> simp

theorem setAll (r g b : Byte) : Statement (.setAll r g b) := by
  simp only [Statement, encode, first, code, wordSetAll, opcField, field, place]
  congr 1
  apply BitVec.eq_of_getLsbD_eq
  intro i hi
  interval_cases i <;> simp

theorem clear : Statement .clear := rfl

theorem setRotation (deg : BitVec 16) : Statement (.setRotation deg) := by
  simp only [Statement, encode, first, code, wordSetRotation, opcField, field, place]
  congr 1
  apply BitVec.eq_of_getLsbD_eq
  intro i hi
  interval_cases i <;> simp

theorem getShape : Statement .getShape := rfl

theorem setBrightness (c : Byte) : Statement (.setBrightness c) := by
  simp only [Statement, encode, first, code, wordSetBrightness, opcField, field, place]
  congr 1
  apply BitVec.eq_of_getLsbD_eq
  intro i hi
  interval_cases i <;> simp

theorem showFrame : Statement .showFrame := rfl
theorem shutdown : Statement .shutdown := rfl
theorem cmdSoftReset (p : Panel) (data : List Byte) : Statement (.cmdSoftReset p data) := rfl
theorem cmdGlobalBrightness (p : Panel) (data : List Byte) : Statement (.cmdGlobalBrightness p data) := rfl
theorem cmdComPinCtrl (p : Panel) (data : List Byte) : Statement (.cmdComPinCtrl p data) := rfl
theorem cmdRowPinCtrl (p : Panel) (data : List Byte) : Statement (.cmdRowPinCtrl p data) := rfl
theorem cmdWriteDisplay (p : Panel) (addr : Byte) (frame : List Byte) :
    Statement (.cmdWriteDisplay p addr frame) := rfl
theorem cmdReadDisplay (p : Panel) (data : List Byte) : Statement (.cmdReadDisplay p data) := rfl
theorem cmdSystemCtrl (p : Panel) (data : List Byte) : Statement (.cmdSystemCtrl p data) := rfl
theorem cmdScrollCtrl (p : Panel) (data : List Byte) : Statement (.cmdScrollCtrl p data) := rfl

end Sys2Proof.Laws.Opcode
end

