-- ==== Sys2Proof/Laws/Encoding.lean ====
section
/-! SUPPORT. The fields of the words the encoder writes, and the words as the sum of their fields (30_encoding.md rules R44,
R45): what the round trips of decoder and encoder are assembled from. -/

namespace Sys2Proof

/-- A bit of a placed field. -/
theorem getLsbD_place {n : Nat} (v : BitVec n) (lo j : Nat) (h : j < 64) :
    (place v lo).getLsbD j = (decide (lo ≤ j) && v.getLsbD (j - lo)) := by
  simp only [place, BitVec.getLsbD_shiftLeft, BitVec.getLsbD_setWidth, h, decide_true, Bool.true_and]
  by_cases hl : lo ≤ j
  · simp [hl, Nat.not_lt.mpr hl, show j - lo < 64 by omega]
  · simp [hl, Nat.lt_of_not_le hl]

/-- A bit of a field. -/
theorem getLsbD_field (n lo j : Nat) (w : RequestWord) (h : j < n) :
    (field n lo w).getLsbD j = w.getLsbD (lo + j) := by
  simp [field, h]

/-- Reserved bits that are 0: a bit under the mask is 0. -/
theorem getLsbD_of_and_eq_zero {w m : RequestWord} (h : w &&& m = 0#64) (j : Nat) (hm : m.getLsbD j = true) :
    w.getLsbD j = false := by
  have hj := congrArg (fun v : BitVec 64 => v.getLsbD j) h
  simpa [hm] using hj

/-! ## The fields of each word -/

theorem xField_wordSetPixel (x y r g b : Byte) : xField (wordSetPixel x y r g b) = x := by
  ext j hj
  simp only [xField, field, wordSetPixel, place]
  interval_cases j <;> simp

theorem yField_wordSetPixel (x y r g b : Byte) : yField (wordSetPixel x y r g b) = y := by
  ext j hj
  simp only [yField, field, wordSetPixel, place]
  interval_cases j <;> simp

theorem rField_wordSetPixel (x y r g b : Byte) : rField (wordSetPixel x y r g b) = r := by
  ext j hj
  simp only [rField, field, wordSetPixel, place]
  interval_cases j <;> simp

theorem gField_wordSetPixel (x y r g b : Byte) : gField (wordSetPixel x y r g b) = g := by
  ext j hj
  simp only [gField, field, wordSetPixel, place]
  interval_cases j <;> simp

theorem bField_wordSetPixel (x y r g b : Byte) : bField (wordSetPixel x y r g b) = b := by
  ext j hj
  simp only [bField, field, wordSetPixel, place]
  interval_cases j <;> simp

theorem rField_wordSetAll (r g b : Byte) : rField (wordSetAll r g b) = r := by
  ext j hj
  simp only [rField, field, wordSetAll, place]
  interval_cases j <;> simp

theorem gField_wordSetAll (r g b : Byte) : gField (wordSetAll r g b) = g := by
  ext j hj
  simp only [gField, field, wordSetAll, place]
  interval_cases j <;> simp

theorem bField_wordSetAll (r g b : Byte) : bField (wordSetAll r g b) = b := by
  ext j hj
  simp only [bField, field, wordSetAll, place]
  interval_cases j <;> simp

theorem degField_wordSetRotation (deg : BitVec 16) : degField (wordSetRotation deg) = deg := by
  ext j hj
  simp only [degField, field, wordSetRotation, place]
  interval_cases j <;> simp

theorem codeField_wordSetBrightness (code : Byte) : codeField (wordSetBrightness code) = code := by
  ext j hj
  simp only [codeField, field, wordSetBrightness, place]
  interval_cases j <;> simp

/-! ## The reserved bits of each word -/

theorem reserved_wordSetPixel (x y r g b : Byte) : wordSetPixel x y r g b &&& Format.px.reserved = 0#64 := by
  ext j hj
  simp only [wordSetPixel, place, Format.reserved]
  interval_cases j <;> simp

theorem reserved_wordSetAll (r g b : Byte) : wordSetAll r g b &&& Format.cl.reserved = 0#64 := by
  ext j hj
  simp only [wordSetAll, place, Format.reserved]
  interval_cases j <;> simp

theorem reserved_wordSetRotation (deg : BitVec 16) : wordSetRotation deg &&& Format.rt.reserved = 0#64 := by
  ext j hj
  simp only [wordSetRotation, place, Format.reserved]
  interval_cases j <;> simp

theorem reserved_wordSetBrightness (code : Byte) : wordSetBrightness code &&& Format.br.reserved = 0#64 := by
  ext j hj
  simp only [wordSetBrightness, place, Format.reserved]
  interval_cases j <;> simp

/-! ## A word whose reserved bits are 0 is the sum of its fields -/

/-- A bit of a field that is placed back where it was read. -/
theorem getLsbD_place_field (n lo j : Nat) (w : RequestWord) (h : j < 64) :
    (place (field n lo w) lo).getLsbD j = (decide (lo ≤ j ∧ j < lo + n) && w.getLsbD j) := by
  rw [getLsbD_place _ _ _ h]
  by_cases hl : lo ≤ j
  · by_cases hn : j < lo + n
    · rw [getLsbD_field _ _ _ _ (by omega)]
      simp [hl, hn, show lo + (j - lo) = j by omega]
    · rw [BitVec.getLsbD_of_ge _ _ (by omega)]
      simp [hn]
  · simp [hl]

theorem word_px {w : RequestWord} (h : w &&& Format.px.reserved = 0#64) :
    w = place (opcField w) 56 ||| place (xField w) 48 ||| place (yField w) 40 ||| place (rField w) 16 |||
      place (gField w) 8 ||| place (bField w) 0 := by
  apply BitVec.eq_of_getLsbD_eq
  intro j hj
  simp only [opcField, xField, yField, rField, gField, bField, BitVec.getLsbD_or, getLsbD_place_field _ _ _ _ hj]
  by_cases hr : 24 ≤ j ∧ j < 40
  · have hz := getLsbD_of_and_eq_zero h j (by obtain ⟨h1, h2⟩ := hr; interval_cases j <;> rfl)
    simp [hz]
  · have : (56 ≤ j ∧ j < 56 + 8) ∨ (48 ≤ j ∧ j < 48 + 8) ∨ (40 ≤ j ∧ j < 40 + 8) ∨ (16 ≤ j ∧ j < 16 + 8) ∨
      (8 ≤ j ∧ j < 8 + 8) ∨ (0 ≤ j ∧ j < 0 + 8) := by omega
    cases w.getLsbD j <;> simp
    omega

theorem word_cl {w : RequestWord} (h : w &&& Format.cl.reserved = 0#64) :
    w = place (opcField w) 56 ||| place (rField w) 16 ||| place (gField w) 8 ||| place (bField w) 0 := by
  apply BitVec.eq_of_getLsbD_eq
  intro j hj
  simp only [opcField, rField, gField, bField, BitVec.getLsbD_or, getLsbD_place_field _ _ _ _ hj]
  by_cases hr : 24 ≤ j ∧ j < 56
  · have hz := getLsbD_of_and_eq_zero h j (by obtain ⟨h1, h2⟩ := hr; interval_cases j <;> rfl)
    simp [hz]
  · cases w.getLsbD j <;> simp
    omega

theorem word_rt {w : RequestWord} (h : w &&& Format.rt.reserved = 0#64) :
    w = place (opcField w) 56 ||| place (degField w) 0 := by
  apply BitVec.eq_of_getLsbD_eq
  intro j hj
  simp only [opcField, degField, BitVec.getLsbD_or, getLsbD_place_field _ _ _ _ hj]
  by_cases hr : 16 ≤ j ∧ j < 56
  · have hz := getLsbD_of_and_eq_zero h j (by obtain ⟨h1, h2⟩ := hr; interval_cases j <;> rfl)
    simp [hz]
  · cases w.getLsbD j <;> simp
    omega

theorem word_br {w : RequestWord} (h : w &&& Format.br.reserved = 0#64) :
    w = place (opcField w) 56 ||| place (codeField w) 0 := by
  apply BitVec.eq_of_getLsbD_eq
  intro j hj
  simp only [opcField, codeField, BitVec.getLsbD_or, getLsbD_place_field _ _ _ _ hj]
  by_cases hr : 8 ≤ j ∧ j < 56
  · have hz := getLsbD_of_and_eq_zero h j (by obtain ⟨h1, h2⟩ := hr; interval_cases j <;> rfl)
    simp [hz]
  · cases w.getLsbD j <;> simp
    omega

theorem word_n {w : RequestWord} (h : w &&& Format.n.reserved = 0#64) : w = place (opcField w) 56 := by
  apply BitVec.eq_of_getLsbD_eq
  intro j hj
  simp only [opcField, getLsbD_place_field _ _ _ _ hj]
  by_cases hr : j < 56
  · have hz := getLsbD_of_and_eq_zero h j (by interval_cases j <;> rfl)
    simp [hz]
  · cases w.getLsbD j <;> simp
    omega

/-- What the check of the reserved bits accepts (R47). -/
theorem checkReserved_ok {f : Format} {w : RequestWord} {i j : Instr} (h : checkReserved f w i = .ok j) :
    w &&& f.reserved = 0#64 ∧ i = j := by
  unfold checkReserved at h
  split at h
  · exact ⟨‹_›, by injection h⟩
  · cases h

theorem commandOf_byte (c : Command) : commandOf c.byte = some c := by cases c <;> rfl

/-- A first byte names at most one command (R49). -/
theorem byte_of_commandOf {b : Byte} {c : Command} (h : commandOf b = some c) : c.byte = b := by
  unfold commandOf at h
  repeat' split at h
  all_goals first
    | (injection h with h; subst h; exact Eq.symm ‹_›)
    | cases h

end Sys2Proof
end

