-- ==== Sys2Proof/Laws/Transfers.lean ====
section
/-! SUPPORT. The bus commands as transactions: what `exec` does with every transaction the DSB may send (30_encoding.md rule
R50). -/

namespace Sys2Proof.Machine

/-- A transaction of R50 decodes to a well-formed bus command. -/
theorem legal_decodes {c : Config} {t : Transaction} (h : t.legal c = true) :
    ∃ i, decode (.transfer t.panel t.bytes) = .ok i ∧ i.wellFormed c = true := by
  unfold Transaction.legal at h
  split at h
  · exact ⟨_, ‹_›, h⟩
  · exact absurd h (by simp)

/-- Every bus command but read-display is one transaction of the bytes it is decoded from, in one write or two. -/
theorem exec_transfer {p : Panel} {bytes : List Byte} {i : Instr} (hd : decode (.transfer p bytes) = .ok i)
    (hr : ∀ q data, i ≠ .cmdReadDisplay q data) :
    ∃ chunks : List (List Byte), chunks.flatten = bytes ∧ 0 < chunks.length ∧ chunks.length ≤ 2 ∧
      (chunks.length = 2 ↔ bytes.head? = some Command.writeDisplay.byte) ∧
      ∀ s : State, s.faultCause = 0#8 → exec i s = (transact 0#64 p chunks s).outcome id := by
  cases bytes with
  | nil => cases hd
  | cons b data =>
    simp only [decode, decodeTransfer] at hd
    split at hd
    · cases hd
    · rename_i cmd hc
      have hb := byte_of_commandOf hc
      subst hb
      cases cmd <;> simp only [decodeCommand] at hd
      case readDisplay =>
        injection hd with hd
        exact absurd hd.symm (hr p data)
      case writeDisplay =>
        split at hd
        · cases hd
        · rename_i a frame
          injection hd with hd
          subst hd
          refine ⟨[[Command.writeDisplay.byte, a], frame], by simp, by simp, by simp, by simp, fun s hs => ?_⟩
          simp [exec, execCmdWriteDisplay, serve_ready hs, displayWrite]
      all_goals
        injection hd with hd
        subst hd
        refine ⟨[commandBytes _ data], List.append_nil _, by simp, by simp, by simp [Command.byte], fun s hs => ?_⟩
        simp only [exec, execCmdSoftReset, execCmdGlobalBrightness, execCmdComPinCtrl, execCmdRowPinCtrl,
          execCmdSystemCtrl, execCmdScrollCtrl, runXfer, serve_ready hs, xfer]

/-- A legal transaction is no read-display (R51). -/
theorem legal_not_read {c : Config} {i : Instr} (h : i.wellFormed c = true) :
    ∀ q data, i ≠ .cmdReadDisplay q data := by
  rintro q data rfl
  simp [Instr.wellFormed] at h

/-- The 16 transactions of reset are legal under a configuration with INIT_BRIGHTNESS ≤ 63 (R50, R96). -/
theorem resetSequence_legal {c : Config} (h : c.brightnessLegal = true) :
    ∀ t ∈ resetSequence c, t.legal c = true := by
  have hb : c.initBrightness.toNat ≤ maxBrightness := by simpa [Config.brightnessLegal] using h
  intro t ht
  simp only [resetSequence, panelReset, List.cons_append, List.nil_append, List.mem_cons, List.not_mem_nil,
    or_false] at ht
  rcases ht with rfl | rfl | rfl | rfl | rfl | rfl | rfl | rfl | rfl | rfl | rfl | rfl | rfl | rfl | rfl | rfl <;>
    simp [Transaction.legal, commandTransaction, displayTransaction, commandBytes, displayBytes, decode, decodeTransfer,
      commandOf, Command.byte, decodeCommand, Instr.wellFormed, brightnessData, hb]

/-- The six transactions of SHUTDOWN are legal (R50, R81). -/
theorem shutdownSequence_legal (c : Config) : ∀ t ∈ shutdownSequence c, t.legal c = true := by
  intro t ht
  simp only [shutdownSequence, panelShutdown, List.cons_append, List.nil_append, List.mem_cons, List.not_mem_nil,
    or_false] at ht
  rcases ht with rfl | rfl | rfl | rfl | rfl | rfl <;>
    simp [Transaction.legal, commandTransaction, commandBytes, decode, decodeTransfer, commandOf, Command.byte,
      decodeCommand, Instr.wellFormed]

/-- A frame of FRAME_BYTES bytes behind the header is legal (R50, R78). -/
theorem displayTransaction_legal {c : Config} (p : Panel) {frame : List Byte} (h : frame.length = c.frameBytes) :
    (displayTransaction c p frame).legal c = true := by
  simp [Transaction.legal, displayTransaction, displayBytes, decode, decodeTransfer, commandOf, Command.byte,
    decodeCommand, Instr.wellFormed, h]

/-- A brightness of at most 63 is legal (R50, R80). -/
theorem brightness_legal {c : Config} (p : Panel) {b : Byte} (h : b.toNat ≤ maxBrightness) :
    (commandTransaction p .globalBrightness [b]).legal c = true := by
  simp [Transaction.legal, commandTransaction, commandBytes, decode, decodeTransfer, commandOf, Command.byte,
    decodeCommand, Instr.wellFormed, brightnessData, h]

end Sys2Proof.Machine
end

