-- ==== Sys2Proof/Laws/Sends.lean ====
section
/-! SUPPORT. What a sequence of transactions can do, said once, and from it everything that SHOW, SET_BRIGHTNESS, SHUTDOWN
and a transfer of the reset sequence can do when they go on. -/

namespace Sys2Proof.Machine

/-- The state after a list of transactions was sent in full: their entries in TRACE, their lines deasserted. -/
def State.afterAll (s : State) (ts : List Transaction) (answers : List WriteResult) : State :=
  { s with trace := s.trace ++ ts, cs := ts.foldl (fun cs t => cs.drive false t.panel) s.cs, answers := answers }

/-- The state in which a write of the transaction after `out` has failed. -/
def State.afterSome (s : State) (w : RequestWord) (out : List Transaction) (answers : List WriteResult) : State :=
  busFailure w { s with trace := s.trace ++ out, answers := answers }

/-- How many writes a list of transactions takes, each given with its number of writes (R77: 1, R78: 2). -/
def writesOf (ts : List (Transaction × Nat)) : Nat := (ts.map Prod.snd).sum

/-- The transactions that are complete after k writes. -/
def sentBy : List (Transaction × Nat) → Nat → List Transaction
  | [], _ => []
  | (t, n) :: ts, k => if k < n then [] else t :: sentBy ts (k - n)

/-- A result sends `ts`: all of them, or those complete before the first write that failed. -/
def Sends (w : RequestWord) (ts : List (Transaction × Nat)) (s : State) (r : Sent) : Prop :=
  (s.Delivers (writesOf ts) ∧ r = .done (s.afterAll (ts.map Prod.fst) (s.answers.drop (writesOf ts)))) ∨
  (∃ k rest, k < writesOf ts ∧ s.answers = List.replicate k .ok ++ .fail :: rest ∧
    r = .failed (s.afterSome w (sentBy ts k) rest))

theorem writesOf_append (ts us : List (Transaction × Nat)) : writesOf (ts ++ us) = writesOf ts + writesOf us := by
  simp [writesOf]

theorem sentBy_append_lt {ts us : List (Transaction × Nat)} {k : Nat} (h : k < writesOf ts) :
    sentBy (ts ++ us) k = sentBy ts k := by
  induction ts generalizing k with
  | nil => simp [writesOf] at h
  | cons t ts ih =>
    simp only [List.cons_append, sentBy]
    split
    · rfl
    · rw [ih (by simp only [writesOf, List.map_cons, List.sum_cons] at h ⊢; omega)]

theorem sentBy_append_add (ts us : List (Transaction × Nat)) (k : Nat) :
    sentBy (ts ++ us) (writesOf ts + k) = ts.map Prod.fst ++ sentBy us k := by
  induction ts with
  | nil => simp [writesOf]
  | cons t ts ih =>
    simp only [List.cons_append, sentBy, List.map_cons]
    rw [if_neg (by simp only [writesOf, List.map_cons, List.sum_cons]; omega), ← ih]
    simp only [writesOf, List.map_cons, List.sum_cons]
    rw [show t.2 + (ts.map Prod.snd).sum + k - t.2 = (ts.map Prod.snd).sum + k by omega]

theorem transact_sends (w : RequestWord) (p : Panel) (chunks : List (List Byte)) (s : State) :
    Sends w [(⟨p, chunks.flatten⟩, chunks.length)] s (transact w p chunks s) := by
  rcases transact_cases w p chunks s with ⟨hd, h⟩ | ⟨k, rest, hk, hr, h⟩
  · exact .inl ⟨by simpa [writesOf] using hd, by rw [h]; simp [writesOf, State.afterAll, State.afterSent]⟩
  · refine .inr ⟨k, rest, by simpa [writesOf] using hk, hr, ?_⟩
    rw [h, State.afterSome, sentBy, if_pos hk, List.append_nil]

theorem xfer_sends (w : RequestWord) (p : Panel) (cmd : Command) (data : List Byte) (s : State) :
    Sends w [(commandTransaction p cmd data, 1)] s (xfer w p cmd data s) := by
  have h := transact_sends w p [commandBytes cmd data] s
  rwa [List.flatten_singleton] at h

theorem xferWriteDisplay_sends (w : RequestWord) (p : Panel) (frame : List Byte) (s : State) :
    Sends w [(displayTransaction s.cfg p frame, 2)] s (xferWriteDisplay w p frame s) := by
  have h := transact_sends w p [[Command.writeDisplay.byte, s.cfg.wdAddr], frame] s
  simpa [displayTransaction, displayBytes, xferWriteDisplay, displayWrite] using h

/-- One sequence after another: what follows runs only when the first was sent in full. -/
theorem Sends.andThen {w : RequestWord} {ts us : List (Transaction × Nat)} {s : State} {r : Sent} {k : State → Sent}
    (h : Sends w ts s r)
    (hk : ∀ n, Sends w us (s.afterAll (ts.map Prod.fst) (s.answers.drop n))
      (k (s.afterAll (ts.map Prod.fst) (s.answers.drop n)))) :
    Sends w (ts ++ us) s (r.andThen k) := by
  rcases h with ⟨hd, rfl⟩ | ⟨m, rest, hm, hr, rfl⟩
  · rw [andThen_done]
    rcases hk (writesOf ts) with ⟨hu, h⟩ | ⟨m, rest, hm, hr, h⟩
    · refine .inl ⟨?_, ?_⟩
      · rw [writesOf_append]
        intro a ha
        rw [List.take_add] at ha
        exact (List.mem_append.1 ha).elim (hd a) (hu a)
      · rw [h, writesOf_append]
        simp [State.afterAll, List.drop_drop]
    · refine .inr ⟨writesOf ts + m, rest, by rw [writesOf_append]; omega, ?_, ?_⟩
      · have hr' : s.answers.drop (writesOf ts) = List.replicate m .ok ++ .fail :: rest := hr
        have hl : (s.answers.take (writesOf ts)).length = writesOf ts := by
          have := congrArg List.length hr'
          simp only [List.length_drop, List.length_append, List.length_replicate, List.length_cons] at this
          rw [List.length_take]; omega
        have ht : s.answers.take (writesOf ts) = List.replicate (writesOf ts) .ok :=
          List.eq_replicate_iff.2 ⟨hl, hd⟩
        rw [← List.take_append_drop (writesOf ts) s.answers, ht, hr', List.replicate_add, List.append_assoc]
      · rw [h, sentBy_append_add]
        simp [State.afterAll, State.afterSome, busFailure, raise]
  · exact .inr ⟨m, rest, by rw [writesOf_append]; omega, hr, by rw [sentBy_append_lt hm]; rfl⟩

/-- What a sending request can answer from an unfaulted state of an ACTIVE driver. -/
def Sent.Ends (w : RequestWord) (ts : List (Transaction × Nat)) (finish : State → State) (s t : State) : Prop :=
  (s.Delivers (writesOf ts) ∧ t = finish (s.afterAll (ts.map Prod.fst) (s.answers.drop (writesOf ts)))) ∨
  (∃ k rest, k < writesOf ts ∧ s.answers = List.replicate k .ok ++ .fail :: rest ∧
    t = s.afterSome w (sentBy ts k) rest)

/-- What sends goes on, and only so. -/
theorem Sends.outcome_iff {w : RequestWord} {ts : List (Transaction × Nat)} {s t : State} {r : Sent}
    {finish : State → State} (h : Sends w ts s r) : r.outcome finish = .next t ↔ Sent.Ends w ts finish s t := by
  rcases h with ⟨hd, rfl⟩ | ⟨k, rest, hk, hr, rfl⟩
  · rw [outcome_done, Host.Outcome.next.injEq]
    refine ⟨fun h => .inl ⟨hd, h.symm⟩, ?_⟩
    rintro (⟨-, h⟩ | ⟨k, rest, hk, hr, -⟩)
    · exact h.symm
    · exact absurd hd (not_delivers_of_fail hr hk)
  · rw [outcome_failed, Host.Outcome.next.injEq]
    refine ⟨fun h => .inr ⟨k, rest, hk, hr, h.symm⟩, ?_⟩
    rintro (⟨hd, -⟩ | ⟨j, more, hj, hm, rfl⟩)
    · exact absurd hd (not_delivers_of_fail hr hk)
    · obtain ⟨rfl, rfl⟩ := firstFail_unique (hr.symm.trans hm)
      rfl

/-- A request that checks LIFE and then sends. -/
theorem whenActive_next_iff {w : RequestWord} {s t : State} {body : State → Result} :
    whenActive w s body = .next t ↔
      (s.life ≠ .active ∧ t = raise .notActive w s) ∨ (s.life = .active ∧ body s = .next t) := by
  by_cases hl : s.life = .active
  · simp [whenActive, hl]
  · simp [whenActive, hl, eq_comm]

/-- The transactions of SHOW with their writes (R73, R78). -/
def showPlan (s : State) : List (Transaction × Nat) :=
  [(displayTransaction s.cfg .panel0 (serialize s.cfg s.pbuf .panel0), 2),
   (displayTransaction s.cfg .panel1 (serialize s.cfg s.pbuf .panel1), 2)]

/-- The transactions of SET_BRIGHTNESS with their writes (R80, R77). -/
def brightnessPlan (code : Byte) : List (Transaction × Nat) :=
  [(commandTransaction .panel0 .globalBrightness [code], 1), (commandTransaction .panel1 .globalBrightness [code], 1)]

/-- The transactions of SHUTDOWN to one panel with their writes (R81, R77). -/
def panelShutdownPlan (c : Config) (p : Panel) : List (Transaction × Nat) := (panelShutdown c p).map fun t => (t, 1)

/-- The transactions of SHUTDOWN with their writes. -/
def shutdownPlan (s : State) : List (Transaction × Nat) :=
  panelShutdownPlan s.cfg .panel0 ++ panelShutdownPlan s.cfg .panel1

/-- Everything SHOW can do when it goes on, and that it does so (R73). -/
theorem execShow_next_iff {s t : State} (hc : s.faultCause = 0#8) : execShow s = .next t ↔
    (s.life ≠ .active ∧ t = raise .notActive wordShow s) ∨
      (s.life = .active ∧ Sent.Ends wordShow (showPlan s) (respond .ok 0#16) s t) := by
  rw [execShow, serve_ready hc, whenActive_next_iff]
  refine or_congr_right (and_congr_right fun _ => ?_)
  exact ((xferWriteDisplay_sends _ _ _ s).andThen fun n => xferWriteDisplay_sends _ _ _ (s.afterAll _ _)).outcome_iff

/-- Everything SET_BRIGHTNESS can do when it goes on, and that it does so (R80). -/
theorem execSetBrightness_next_iff {code : Byte} {s t : State} (hc : s.faultCause = 0#8) :
    execSetBrightness code s = .next t ↔
    (s.life ≠ .active ∧ t = raise .notActive (wordSetBrightness code) s) ∨
      (s.life = .active ∧
        ((maxBrightness < code.toNat ∧ t = raise .brightnessRange (wordSetBrightness code) s) ∨
          (code.toNat ≤ maxBrightness ∧
            Sent.Ends (wordSetBrightness code) (brightnessPlan code) (respond .ok 0#16) s t))) := by
  rw [execSetBrightness, serve_ready hc, whenActive_next_iff]
  refine or_congr_right (and_congr_right fun _ => ?_)
  by_cases hb : maxBrightness < code.toNat
  · simp [hb, Nat.not_le.2 hb, eq_comm]
  · simp only [hb, false_and, false_or, Nat.le_of_not_lt hb, true_and]
    exact ((xfer_sends _ _ _ _ s).andThen fun n => xfer_sends _ _ _ _ _).outcome_iff

theorem shutPanel_sends (p : Panel) (s : State) :
    Sends wordShutdown (panelShutdownPlan s.cfg p) s (shutPanel p s) := by
  have h : Sends wordShutdown
      ([(commandTransaction p .comPinCtrl s.cfg.pComOff, 1)] ++ [(commandTransaction p .rowPinCtrl s.cfg.pRowOff, 1)]) s
      ((xfer wordShutdown p .comPinCtrl s.cfg.pComOff s).andThen fun s =>
        xfer wordShutdown p .rowPinCtrl s.cfg.pRowOff s) :=
    (xfer_sends _ _ _ _ s).andThen fun n => xfer_sends _ _ _ _ _
  exact h.andThen fun n => xfer_sends _ _ _ _ _

/-- Everything SHUTDOWN can do when it goes on, and that it does so (R81). -/
theorem execShutdown_next_iff {s t : State} (hc : s.faultCause = 0#8) : execShutdown s = .next t ↔
    (s.life ≠ .active ∧ t = raise .notActive wordShutdown s) ∨
      (s.life = .active ∧ Sent.Ends wordShutdown (shutdownPlan s)
        (fun s => respond .ok 0#16 (setLife .shutdown s)) s t) := by
  rw [execShutdown, serve_ready hc, whenActive_next_iff]
  refine or_congr_right (and_congr_right fun _ => ?_)
  exact ((shutPanel_sends .panel0 s).andThen fun n => shutPanel_sends .panel1 (s.afterAll _ _)).outcome_iff

/-- The writes of the transaction with these bytes: two for a display write, one for a command (R77, R78). -/
def writesOfBytes (bytes : List Byte) : Nat := if bytes.head? = some Command.writeDisplay.byte then 2 else 1

/-- Everything a bus command but read-display can do when it goes on, and that it does so (R77, R78). -/
theorem exec_transfer_next_iff {p : Panel} {bytes : List Byte} {i : Instr} {s t : State}
    (hd : decode (.transfer p bytes) = .ok i) (hr : ∀ q data, i ≠ .cmdReadDisplay q data) (hc : s.faultCause = 0#8) :
    exec i s = .next t ↔ Sent.Ends 0#64 [(⟨p, bytes⟩, writesOfBytes bytes)] id s t := by
  obtain ⟨chunks, hb, h0, h2, hw, he⟩ := exec_transfer hd hr
  have hn : writesOfBytes bytes = chunks.length := by
    unfold writesOfBytes
    split
    · exact (hw.2 ‹_›).symm
    · have : chunks.length ≠ 2 := fun h => absurd (hw.1 h) ‹_›
      omega
  rw [he s hc, hn, ← hb]
  exact (transact_sends 0#64 p chunks s).outcome_iff

/-- A faulted DSB takes no instruction but the refused one (R85). -/
theorem exec_faulted {i : Instr} {s : State} (hr : ∀ q data, i ≠ .cmdReadDisplay q data) (hc : s.faultCause ≠ 0#8) :
    exec i s = .fault .dsbFaulted := by
  cases i with
  | cmdReadDisplay q data => exact absurd rfl (hr q data)
  | _ =>
    simp [exec, execSetPixel, execSetAll, execClear, execSetRotation, execGetShape, execSetBrightness, execShow,
      execShutdown, execCmdSoftReset, execCmdGlobalBrightness, execCmdComPinCtrl, execCmdRowPinCtrl,
      execCmdWriteDisplay, execCmdSystemCtrl, execCmdScrollCtrl, runXfer, serve_faulted hc]

end Sys2Proof.Machine
end

