-- ==== Sys2Proof/Tests/Slice0.lean ====
section
/-! SUPPORT. Tests and witnesses. Expected values are those of 95_test_vectors.md (the section stands in brackets) or the
encodings of 30_encoding.md, written out by hand. -/

namespace Sys2Proof.Machine.Tests

open Sys2Proof Sys2Proof.Machine

/-! ## The synthetic configurations of 95_test_vectors.md section 3 -/

/-- The table of TC1: LUT[3·i + c] = 3·l + c in each run. -/
def table1 : List Byte :=
  (List.range 189).map (BitVec.ofNat 8) ++ (List.range 168).map (BitVec.ofNat 8)

/-- TC1 [3]. -/
def tc1 : Config where
  split          := 63
  frameBytes     := 192
  lut            := ⟨table1.toArray, by simp [table1]⟩
  wdAddr         := 0x00#8
  initBrightness := 0x01#8
  pSoftReset     := []
  pScrollOff     := [0x00#8]
  pSysOff        := [0x00#8]
  pSysOn         := [0x03#8]
  pComOn         := [0xFF#8]
  pRowOn         := [0xFF#8, 0xFF#8, 0xFF#8, 0xFF#8]
  pComOff        := [0x00#8]
  pRowOff        := [0x00#8, 0x00#8, 0x00#8, 0x00#8]
  transport      := default

/-- The table of TC2: LUT[3·i + c] = 3·(count_p − 1 − l) + (2 − c). -/
def table2 : List Byte :=
  (List.range 189).map (fun k => BitVec.ofNat 8 (188 - k)) ++ (List.range 168).map (fun k => BitVec.ofNat 8 (167 - k))

/-- TC2 [3]. -/
def tc2 : Config := { tc1 with lut := ⟨table2.toArray, by simp [table2]⟩ }

theorem tc1_runs : tc1.runsDistinct = true :=
  runsDistinct_of_runs (r0 := (List.range 189).map (BitVec.ofNat 8)) (r1 := (List.range 168).map (BitVec.ofNat 8))
    rfl (by simp [tc1]) (bytes_nodup (f := id) (by simp; omega) (by simp)) (bytes_nodup (f := id) (by simp; omega) (by simp))

theorem tc2_runs : tc2.runsDistinct = true :=
  runsDistinct_of_runs (r0 := (List.range 189).map fun k => BitVec.ofNat 8 (188 - k))
    (r1 := (List.range 168).map fun k => BitVec.ofNat 8 (167 - k))
    rfl (by simp [tc2, tc1]) (bytes_nodup (f := fun k => 188 - k) (by omega) (by omega))
    (bytes_nodup (f := fun k => 167 - k) (by omega) (by omega))

theorem tc1_in_frame : tc1.lutInFrame = true := by decide +kernel
theorem tc2_in_frame : tc2.lutInFrame = true := by decide +kernel

theorem test_tc1_wellFormed : tc1.wellFormed = true := by
  simp only [Config.wellFormed, tc1_runs, tc1_in_frame]; decide
theorem test_tc2_wellFormed : tc2.wellFormed = true := by
  simp only [Config.wellFormed, tc2_runs, tc2_in_frame]; decide

/-- TC1 as what a machine is built from. -/
def built1 : WellFormedConfig := ⟨tc1, test_tc1_wellFormed⟩

/-- R9, R96: no machine is built from an ill-formed configuration; one is built from TC1. -/
theorem test_build :
    build { tc1 with split := 0 } = .refused .illFormedConfig ∧ build tc1 = .next (State.powerOn built1) :=
  ⟨dif_neg (by decide), dif_pos test_tc1_wellFormed⟩

/-! ## The checks refuse: R9 (a) to (e), one ill-formed configuration each -/

theorem test_split_zero_refused : ({ tc1 with split := 0 } : Config).wellFormed = false := by decide
theorem test_split_119_refused : ({ tc1 with split := 119 } : Config).wellFormed = false := by decide
theorem test_no_frame_refused : ({ tc1 with frameBytes := 0 } : Config).wellFormed = false := by decide
theorem test_entry_outside_frame_refused : ({ tc1 with frameBytes := 188 } : Config).lutInFrame = false := by
  decide +kernel
theorem test_run0_repeats_refused : ({ tc1 with split := 64 } : Config).runsDistinct = false := by decide +kernel
theorem test_run1_repeats_refused : ({ tc1 with lut := tc1.lut.set 356 0#8 } : Config).runsDistinct = false := by
  decide +kernel
theorem test_brightness_64_refused : ({ tc1 with initBrightness := 64#8 } : Config).brightnessLegal = false := by decide

/-- One ill-formed bus command for each check of R50 and R51. -/
theorem test_illformed_commands_refused :
    (Instr.cmdSoftReset .panel0 [0#8]).wellFormed tc1 = false ∧
    (Instr.cmdGlobalBrightness .panel0 [64#8]).wellFormed tc1 = false ∧
    (Instr.cmdGlobalBrightness .panel0 []).wellFormed tc1 = false ∧
    (Instr.cmdComPinCtrl .panel1 [0x01#8]).wellFormed tc1 = false ∧
    (Instr.cmdRowPinCtrl .panel1 []).wellFormed tc1 = false ∧
    (Instr.cmdWriteDisplay .panel0 0x01#8 (zeros 192)).wellFormed tc1 = false ∧
    (Instr.cmdWriteDisplay .panel0 0x00#8 (zeros 191)).wellFormed tc1 = false ∧
    (Instr.cmdReadDisplay .panel0 []).wellFormed tc1 = false ∧
    (Instr.cmdSystemCtrl .panel0 [0x01#8]).wellFormed tc1 = false ∧
    (Instr.cmdScrollCtrl .panel0 [0x01#8]).wellFormed tc1 = false := by decide +kernel

/-! ## Decoding: a word or a transaction for each constructor, from the tables of R44, R46, R49, R50 -/

theorem test_decode_setPixel : decode (.request 0x01100600000804FC#64) = .ok (.setPixel 16#8 6#8 8#8 4#8 252#8) := by rfl
theorem test_decode_setAll : decode (.request 0x0200000000804020#64) = .ok (.setAll 128#8 64#8 32#8) := by rfl
theorem test_decode_clear : decode (.request 0x0300000000000000#64) = .ok .clear := by rfl
theorem test_decode_setRotation : decode (.request 0x040000000000010E#64) = .ok (.setRotation 270#16) := by rfl
theorem test_decode_getShape : decode (.request 0x0500000000000000#64) = .ok .getShape := by rfl
theorem test_decode_setBrightness : decode (.request 0x060000000000003F#64) = .ok (.setBrightness 63#8) := by rfl
theorem test_decode_show : decode (.request 0x0700000000000000#64) = .ok .showFrame := by rfl
theorem test_decode_shutdown : decode (.request 0x0800000000000000#64) = .ok .shutdown := by rfl
theorem test_decode_softReset : decode (.transfer .panel0 [0xCC#8]) = .ok (.cmdSoftReset .panel0 []) := by rfl
theorem test_decode_globalBrightness :
    decode (.transfer .panel1 [0x37#8, 0x3F#8]) = .ok (.cmdGlobalBrightness .panel1 [0x3F#8]) := by rfl
theorem test_decode_comPinCtrl :
    decode (.transfer .panel0 [0x41#8, 0xFF#8]) = .ok (.cmdComPinCtrl .panel0 [0xFF#8]) := by rfl
theorem test_decode_rowPinCtrl :
    decode (.transfer .panel0 [0x42#8, 0xFF#8, 0xFF#8, 0xFF#8, 0xFF#8]) =
      .ok (.cmdRowPinCtrl .panel0 [0xFF#8, 0xFF#8, 0xFF#8, 0xFF#8]) := by rfl
theorem test_decode_writeDisplay :
    decode (.transfer .panel1 [0x80#8, 0x00#8, 0x3F#8, 0x01#8]) =
      .ok (.cmdWriteDisplay .panel1 0x00#8 [0x3F#8, 0x01#8]) := by rfl
theorem test_decode_readDisplay : decode (.transfer .panel0 [0x81#8]) = .ok (.cmdReadDisplay .panel0 []) := by rfl
theorem test_decode_systemCtrl :
    decode (.transfer .panel0 [0x35#8, 0x03#8]) = .ok (.cmdSystemCtrl .panel0 [0x03#8]) := by rfl
theorem test_decode_scrollCtrl :
    decode (.transfer .panel1 [0x20#8, 0x00#8]) = .ok (.cmdScrollCtrl .panel1 [0x00#8]) := by rfl

/-- The illegal words of [2.2], with the reason each is rejected for. -/
theorem test_illegal_words :
    decode (.request 0x0000000000000000#64) = .error (.unknownOpcode 0x00#8) ∧
    decode (.request 0x0900000000000000#64) = .error (.unknownOpcode 0x09#8) ∧
    decode (.request 0xFF00000000000000#64) = .error (.unknownOpcode 0xFF#8) ∧
    decode (.request 0x0100000001010203#64) = .error (.reservedBits 0x01#8) ∧
    decode (.request 0x0300000000000001#64) = .error (.reservedBits 0x03#8) ∧
    decode (.request 0x0400000000010000#64) = .error (.reservedBits 0x04#8) ∧
    decode (.request 0x0600000000000100#64) = .error (.reservedBits 0x06#8) ∧
    decode (.request 0x0111000001000000#64) = .error (.reservedBits 0x01#8) := by
  exact ⟨rfl, rfl, rfl, rfl, rfl, rfl, rfl, rfl⟩

/-- Bytes that are no transaction (R25, R50, R51). -/
theorem test_illegal_transactions :
    decode (.transfer .panel0 []) = .error .emptyTransaction ∧
    decode (.transfer .panel0 [0x00#8]) = .error (.unknownCommand 0x00#8) ∧
    decode (.transfer .panel0 [0x80#8]) = .error .noHeaderByte := ⟨rfl, rfl, rfl⟩

/-! ## One step each -/

/-- The next state of an outcome. -/
def next? : Result → Option State
  | .next s => some s
  | .fault _ => none
  | .refused _ => none

/-- The DSB after reset under TC1 [2.7]. -/
def ready : State := State.afterReset built1 []

/-- What one instruction leaves, seen through `f`. -/
def see {α : Type} (f : State → α) (i : Instr) (s : State) : Option α := (next? (exec i s)).map f

/-- [2.5]: under rotation 0, SET_PIXEL 16, 6 writes the last slot. -/
theorem test_setPixel_last_slot :
    see (fun t => (loadPixel t 118, loadPixel t 117, t.resp)) (.setPixel 16#8 6#8 8#8 4#8 252#8) ready =
      some (some 0x0002013F#32, some 0#32, 0#32) := by decide +kernel
/-- [2.2]: SET_PIXEL 17, 0 faults. -/
theorem test_setPixel_out_of_range :
    see (fun t => (t.faultCause, t.faultReq)) (.setPixel 17#8 0#8 0#8 0#8 0#8) ready =
      some (0x02#8, 0x0111000000000000#64) := by decide +kernel
/-- [2.5]: SET_ALL 128, 64, 32. -/
theorem test_setAll :
    see (fun t => (loadPixel t 0, loadPixel t 118, t.trace.length)) (.setAll 128#8 64#8 32#8) ready =
      some (some 0x00201008#32, some 0x00201008#32, 16) := by decide +kernel
/-- [2.5]: CLEAR, with a pixel set before. -/
theorem test_clear :
    see (fun t => loadPixel t 48) .clear { ready with pbuf := ready.pbuf.set 48 0x003F3F3F#32 } = some (some 0#32) := by
  decide +kernel
/-- [2.4]: 270 degrees. -/
theorem test_setRotation_270 : see (fun t => (t.rot.code, t.resp)) (.setRotation 270#16) ready = some (3#2, 0#32) := by
  decide +kernel
/-- [2.4]: 360 degrees with ROT = 2. -/
theorem test_setRotation_360 :
    see (fun t => (t.rot.code, t.resp)) (.setRotation 360#16) { ready with rot := .deg180 } =
      some (2#2, 0x01000000#32) := by decide +kernel
/-- [2.3]: GET_SHAPE under rotation 1. -/
theorem test_getShape_90 : see (fun t => t.resp) .getShape { ready with rot := .deg90 } = some 0x00000711#32 := by
  decide +kernel
/-- [2.6]: SET_BRIGHTNESS 63. -/
theorem test_setBrightness_63 :
    see (fun t => (t.trace.drop 16, t.resp)) (.setBrightness 63#8) ready =
      some ([⟨.panel0, [0x37#8, 0x3F#8]⟩, ⟨.panel1, [0x37#8, 0x3F#8]⟩], 0#32) := by decide +kernel
/-- [2.2]: SET_BRIGHTNESS 64 after SHUTDOWN faults with NOT_ACTIVE. -/
theorem test_setBrightness_priority :
    see (fun t => (t.faultCause, t.faultReq, t.trace.length)) (.setBrightness 64#8) { ready with life := .shutdown } =
      some (0x03#8, 0x0600000000000040#64, 16) := by decide +kernel
/-- [W6]: SHOW sends two transactions with their headers. -/
theorem test_show_two_transactions :
    see (fun t => (t.trace.drop 16).map fun x => (x.panel, x.bytes.take 2)) .showFrame ready =
      some [(.panel0, [0x80#8, 0x00#8]), (.panel1, [0x80#8, 0x00#8])] := by decide +kernel
/-- [P5]: the second frame write fails: one transaction, cause 5, the word of SHOW. -/
theorem test_show_fourth_write_fails :
    see (fun t => ((t.trace.drop 16).map (fun x => x.panel), t.faultCause, t.faultReq, t.resp)) .showFrame
      { ready with answers := [.ok, .ok, .ok, .fail] } =
      some ([.panel0], 0x05#8, 0x0700000000000000#64, 0#32) := by decide +kernel
/-- [2.6]: SHUTDOWN. -/
theorem test_shutdown :
    see (fun t => (t.trace.drop 16, t.life.code)) .shutdown ready =
      some ([⟨.panel0, [0x41#8, 0x00#8]⟩, ⟨.panel0, [0x42#8, 0x00#8, 0x00#8, 0x00#8, 0x00#8]⟩,
        ⟨.panel0, [0x35#8, 0x00#8]⟩, ⟨.panel1, [0x41#8, 0x00#8]⟩,
        ⟨.panel1, [0x42#8, 0x00#8, 0x00#8, 0x00#8, 0x00#8]⟩, ⟨.panel1, [0x35#8, 0x00#8]⟩], 2#2) := by decide +kernel
/-- [2.6]: a second SHUTDOWN. -/
theorem test_shutdown_twice :
    see (fun t => (t.faultCause, t.trace.length)) .shutdown { ready with life := .shutdown } = some (0x03#8, 16) := by
  decide +kernel

/-- [2.7], rows 1, 3, 4, 5: the transactions of the transfer commands. -/
theorem test_transfers_send :
    see (fun t => t.trace.drop 16) (.cmdSoftReset .panel0 []) ready = some [⟨.panel0, [0xCC#8]⟩] ∧
    see (fun t => t.trace.drop 16) (.cmdGlobalBrightness .panel1 [0x01#8]) ready =
      some [⟨.panel1, [0x37#8, 0x01#8]⟩] ∧
    see (fun t => t.trace.drop 16) (.cmdScrollCtrl .panel0 [0x00#8]) ready = some [⟨.panel0, [0x20#8, 0x00#8]⟩] ∧
    see (fun t => t.trace.drop 16) (.cmdSystemCtrl .panel1 [0x03#8]) ready = some [⟨.panel1, [0x35#8, 0x03#8]⟩] ∧
    see (fun t => t.trace.drop 16) (.cmdComPinCtrl .panel0 [0xFF#8]) ready = some [⟨.panel0, [0x41#8, 0xFF#8]⟩] ∧
    see (fun t => t.trace.drop 16) (.cmdRowPinCtrl .panel1 [0xFF#8]) ready = some [⟨.panel1, [0x42#8, 0xFF#8]⟩] ∧
    see (fun t => t.trace.drop 16) (.cmdWriteDisplay .panel1 0x00#8 [0x3F#8]) ready =
      some [⟨.panel1, [0x80#8, 0x00#8, 0x3F#8]⟩] := by decide +kernel

/-- [2.2]: the all-zero word. -/
theorem test_zero_word_faults :
    (next? (step { ready with host := [.request 0#64] })).map (fun t => (t.faultCause, t.faultReq, t.trace.length)) =
      some (0x01#8, 0#64, 16) := by decide +kernel

/-- [P2]: CLEAR while faulted is STUCK. -/
theorem test_faulted_is_stuck :
    next? (step { ready with faultCause := 0x02#8, host := [.request 0x0300000000000000#64] }) = none := by
  decide +kernel

/-- [2.7], the variant in which write 3 of reset fails: the step of that transfer. -/
theorem test_reset_write_fails :
    (next? (step { ready with
        life := .uninit, seq := (resetSequence tc1).drop 2, trace := (resetSequence tc1).take 2, answers := [.fail] })).map
      (fun t => (t.trace.length, t.life.code, t.faultCause, t.faultReq, t.seq.length)) =
      some (2, 0#2, 0x05#8, 0#64, 0) := by decide +kernel

/-- [P1] under TC1 and TC2: the three bytes of slot 118 = 0x0002013F in panel 1's frame. -/
theorem test_putPixel_118 :
    (let fb := putPixel tc1 (Vector.replicate 119 0x0002013F#32) (zeros 192) 118
     (fb[164]?, fb[165]?, fb[166]?, fb[167]?)) = (some 0#8, some 2#8, some 1#8, some 63#8) ∧
    (let fb := putPixel tc2 (Vector.replicate 119 0x0002013F#32) (zeros 192) 118
     (fb[0]?, fb[1]?, fb[2]?, fb[3]?)) = (some 63#8, some 1#8, some 2#8, some 0#8) := by decide +kernel

/-- [2.3]: offsets under the four rotations. -/
theorem test_addresses :
    [addr .deg0 1 2, addr .deg90 1 2, addr .deg180 1 2, addr .deg270 1 2] = [9, 99, 109, 19] ∧
    [addr .deg0 3 5, addr .deg90 3 5, addr .deg180 3 5, addr .deg270 3 5] = [26, 80, 92, 38] ∧
    [inRange .deg0 17 0, inRange .deg90 0 16, inRange .deg90 7 0, inRange .deg270 0 255] =
      [false, true, false, false] := by decide

/-- [2.1]: quantized colors. -/
theorem test_colors :
    colorPixel 8#8 4#8 252#8 = 0x0002013F#32 ∧ colorPixel 1#8 2#8 3#8 = 0#32 ∧ colorPixel 4#8 4#8 4#8 = 0x00010101#32 := by
  decide

/-- [2.6]: the codes of levels. -/
theorem test_brightness_codes :
    brightnessCode (1 / 2) = some 32#8 ∧ brightnessCode (1 / 126) = some 0#8 ∧ brightnessCode (3 / 126) = some 2#8 ∧
    brightnessCode (5 / 126) = some 2#8 ∧ brightnessCode (3 / 4) = some 47#8 ∧ brightnessCode (11 / 10) = none := by
  decide +kernel

/-- [P2], two lines of the program's text, and an operand that does not fit (R53). -/
theorem test_assembler :
    Assembler.program "SET_ROTATION 90   ; ROT = 1\nSET_PIXEL 6, 16, 8, 0x4, 252\nSET_BRIGHTNESS_F 1/2".toList =
      .ok [.setRotation 90#16, .setPixel 6#8 16#8 8#8 4#8 252#8, .setBrightness 32#8] ∧
    Assembler.program "SET_ALL 0, 256, 0".toList = .error .doesNotFit := by decide +kernel

/-! ## Witnesses: for every obligation with hypotheses, a state and operands that meet them -/

theorem next?_some {r : Result} {t : State} (h : next? r = some t) : r = .next t := by
  cases r <;> simp_all [next?]

/-- An instruction that goes on, with a property of its next state. -/
theorem goes {P : State → Prop} [DecidablePred P] {r : Result}
    (h : (next? r).map (fun t => decide (P t)) = some true) : ∃ t, r = .next t ∧ P t := by
  cases hr : next? r with
  | none => simp [hr] at h
  | some t => exact ⟨t, next?_some hr, by simpa [hr] using h⟩

/-- The invariant holds of the DSB right after reset under TC1. -/
theorem ready_inv : ready.Inv where
  config       := test_tc1_wellFormed
  pixels       := by decide +kernel
  causeListed  := .inl rfl
  requestClear := fun _ => rfl
  respListed   := by decide
  linesIdle    := fun _ => rfl
  traceLegal   := by decide +kernel
  resetRunning := fun h => absurd rfl h
  uninitOnly   := fun h => nomatch h

/-- `ready` with the host's next event. -/
def asked (w : RequestWord) : State := { ready with host := [.request w] }

theorem witness_EncodeInvertsDecode :
    (∃ i, decode (.request 0x0107000000010101#64) = .ok i) ∧
    (∃ i, decode (.transfer .panel1 [0x80#8, 0x00#8]) = .ok i) := ⟨⟨_, rfl⟩, ⟨_, rfl⟩⟩

theorem witness_RequestsDecodeByOpcodeMap :
    (0x01FFFF0000FFFFFF#64 &&& 0xFF0000FFFF000000#64 : BitVec 64) = 0x0100000000000000#64 ∧
    (0x0200000000FFFFFF#64 &&& 0xFFFFFFFFFF000000#64 : BitVec 64) = 0x0200000000000000#64 ∧
    (0x0300000000000000#64 &&& 0xFFFFFFFFFFFFFFFF#64 : BitVec 64) = 0x0300000000000000#64 ∧
    (0x040000000000FFFF#64 &&& 0xFFFFFFFFFFFF0000#64 : BitVec 64) = 0x0400000000000000#64 ∧
    (0x0500000000000000#64 &&& 0xFFFFFFFFFFFFFFFF#64 : BitVec 64) = 0x0500000000000000#64 ∧
    (0x06000000000000FF#64 &&& 0xFFFFFFFFFFFFFF00#64 : BitVec 64) = 0x0600000000000000#64 ∧
    (0x0700000000000000#64 &&& 0xFFFFFFFFFFFFFFFF#64 : BitVec 64) = 0x0700000000000000#64 ∧
    (0x0800000000000000#64 &&& 0xFFFFFFFFFFFFFFFF#64 : BitVec 64) = 0x0800000000000000#64 ∧
    (∀ r ∈ opcodeMap, r.hits 0x0900000000000000#64 = false) ∧
    (∃ r ∈ opcodeMap, r.hits 0x0800000000000000#64 = true) := by decide

theorem witness_StepRunsDecodedRequest :
    (asked 0x0500000000000000#64).seq = [] ∧
    (asked 0x0500000000000000#64).host = .request 0x0500000000000000#64 :: [] ∧
    decode (.request 0x0500000000000000#64) = .ok .getShape := ⟨rfl, rfl, rfl⟩

/-- `ready` with one transfer pending. -/
def pending (bytes : List Byte) : State := { ready with seq := [⟨.panel1, bytes⟩] }

theorem witness_StepRunsDecodedTransfer :
    (pending [0x35#8, 0x03#8]).seq = ⟨.panel1, [0x35#8, 0x03#8]⟩ :: [] ∧
    decode (.transfer .panel1 [0x35#8, 0x03#8]) = .ok (.cmdSystemCtrl .panel1 [0x03#8]) ∧
    (∃ u, exec (.cmdSystemCtrl .panel1 [0x03#8]) { pending [0x35#8, 0x03#8] with seq := [] } = .next u) ∧
    (∃ u, exec (.cmdSystemCtrl .panel1 [0x03#8])
      { pending [0x35#8, 0x03#8] with seq := [], answers := [.fail] } = .next u ∧ u.faultCause ≠ 0#8) ∧
    (∃ f, exec (.cmdSystemCtrl .panel1 [0x03#8])
      { pending [0x35#8, 0x03#8] with seq := [], faultCause := 0x05#8 } = .fault f) ∧
    decode (.transfer .panel1 [0x81#8]) = .ok (.cmdReadDisplay .panel1 []) ∧
    (∃ r, exec (.cmdReadDisplay .panel1 []) { pending [0x81#8] with seq := [] } = .refused r) :=
  ⟨rfl, rfl, ⟨_, rfl⟩, goes (by decide +kernel), ⟨_, rfl⟩, rfl, ⟨_, rfl⟩⟩

theorem witness_IllegalRequestFaults :
    (asked 0#64).seq = [] ∧ (asked 0#64).host = .request 0#64 :: [] ∧ (asked 0#64).faultCause = 0#8 ∧
    (0#64).extractLsb' 56 8 = 0x00#8 ∧
    0x09#8 ≤ (0x0900000000000000#64).extractLsb' 56 8 ∧
    ((0x0100000001000000#64).extractLsb' 56 8 = 0x01#8 ∧ (0x0100000001000000#64).extractLsb' 24 16 ≠ 0#16) ∧
    ((0x0280000000000000#64).extractLsb' 56 8 = 0x02#8 ∧ (0x0280000000000000#64).extractLsb' 24 32 ≠ 0#32) ∧
    ((0x0300000000000001#64).extractLsb' 56 8 = 0x03#8 ∧ (0x0300000000000001#64).extractLsb' 0 56 ≠ 0#56) ∧
    ((0x0400000000010000#64).extractLsb' 56 8 = 0x04#8 ∧ (0x0400000000010000#64).extractLsb' 16 40 ≠ 0#40) ∧
    ((0x0580000000000000#64).extractLsb' 56 8 = 0x05#8 ∧ (0x0580000000000000#64).extractLsb' 0 56 ≠ 0#56) ∧
    ((0x0600000000000100#64).extractLsb' 56 8 = 0x06#8 ∧ (0x0600000000000100#64).extractLsb' 8 48 ≠ 0#48) ∧
    ((0x0700000000000001#64).extractLsb' 56 8 = 0x07#8 ∧ (0x0700000000000001#64).extractLsb' 0 56 ≠ 0#56) ∧
    ((0x0880000000000000#64).extractLsb' 56 8 = 0x08#8 ∧ (0x0880000000000000#64).extractLsb' 0 56 ≠ 0#56) := by
  refine ⟨rfl, rfl, rfl, ?_⟩
  decide

theorem witness_QuantizerLaws :
    (251#8).toNat ≤ (252#8).toNat ∧ quantize 252#8 = 63#6 ∧ quantize 255#8 = 63#6 ∧ quantize 3#8 = 0#6 ∧
    pack 63#6 0#6 1#6 = pack 63#6 0#6 1#6 := by decide

/-- The corners of both shapes, and the last offset. -/
theorem witness_ShapesAndAddressFunctions_and_MapperLaws :
    (16 < (shape .deg0).1 ∧ 6 < (shape .deg0).2) ∧ (6 < (shape .deg90).1 ∧ 16 < (shape .deg90).2) ∧
    (16 < (shape .deg180).1 ∧ 6 < (shape .deg180).2) ∧ (6 < (shape .deg270).1 ∧ 16 < (shape .deg270).2) ∧
    addr .deg270 6 16 = addr .deg270 6 16 ∧ 118 < 119 := by decide

theorem witness_SetPixelWritesOneSlotOrFaults :
    ((0x0100000001000000#64).extractLsb' 56 8 = 0x01#8 ∧ (0x0100000001000000#64).extractLsb' 24 16 ≠ 0#16) ∧
    (ready.faultCause = 0#8 ∧ (16#8).toNat < (shape ready.rot).1 ∧ (6#8).toNat < (shape ready.rot).2) ∧
    (ready.faultCause = 0#8 ∧ (shape ready.rot).1 ≤ (17#8).toNat) ∧
    (ready.faultCause = 0#8 ∧ (shape ready.rot).2 ≤ (7#8).toNat) ∧
    (∃ a, a ≠ addr ready.rot (16#8).toNat (6#8).toNat) := by
  refine ⟨by decide, ⟨rfl, by decide, by decide⟩, ⟨rfl, by decide⟩, ⟨rfl, by decide⟩, 0, by decide⟩

theorem witness_SetAll_Clear_SetRotation_GetShape :
    ((0x0200000001000000#64).extractLsb' 56 8 = 0x02#8 ∧ (0x0200000001000000#64).extractLsb' 24 32 ≠ 0#32) ∧
    ((0x0380000000000000#64).extractLsb' 56 8 = 0x03#8 ∧ (0x0380000000000000#64).extractLsb' 0 56 ≠ 0#56) ∧
    ((0x0480000000000000#64).extractLsb' 56 8 = 0x04#8 ∧ (0x0480000000000000#64).extractLsb' 16 40 ≠ 0#40) ∧
    ((0x0500000000000001#64).extractLsb' 56 8 = 0x05#8 ∧ (0x0500000000000001#64).extractLsb' 0 56 ≠ 0#56) ∧
    (360#16 ≠ 0#16 ∧ 360#16 ≠ 90#16 ∧ 360#16 ≠ 180#16 ∧ 360#16 ≠ 270#16) ∧
    ready.faultCause = 0#8 ∧ { ready with life := .shutdown }.faultCause = 0#8 := by
  refine ⟨by decide, by decide, by decide, by decide, by decide, rfl, rfl⟩

/-- `ready` after SHUTDOWN. -/
def down : State := { ready with life := .shutdown }

/-- `ready` with a transport that delivers k writes and fails the next. -/
def failsAt (k : Nat) : State := { ready with answers := List.replicate k WriteResult.ok ++ [WriteResult.fail] }

theorem reliable_failsAt (n : Nat) : (failsAt n).Reliable n := by simp [State.Reliable, failsAt]

theorem witness_ShowSendsTwoFrames :
    ((0x0700000000000001#64).extractLsb' 56 8 = 0x07#8 ∧ (0x0700000000000001#64).extractLsb' 0 56 ≠ 0#56) ∧
    (down.faultCause = 0#8 ∧ down.life ≠ .active) ∧
    ((failsAt 4).faultCause = 0#8 ∧ (failsAt 4).life = .active ∧ (failsAt 4).Reliable 4) ∧
    (∀ k, k < 4 → (failsAt k).faultCause = 0#8 ∧ (failsAt k).life = .active ∧
      (failsAt k).answers = List.replicate k .ok ++ .fail :: []) :=
  ⟨by decide, ⟨rfl, nofun⟩, ⟨rfl, rfl, reliable_failsAt 4⟩, fun _ _ => ⟨rfl, rfl, rfl⟩⟩

theorem witness_SetBrightnessSendsCode :
    ((0x0600000000000100#64).extractLsb' 56 8 = 0x06#8 ∧ (0x0600000000000100#64).extractLsb' 8 48 ≠ 0#48) ∧
    (down.faultCause = 0#8 ∧ down.life ≠ .active) ∧
    (ready.faultCause = 0#8 ∧ ready.life = .active ∧ 63 < (64#8).toNat) ∧
    ((failsAt 2).faultCause = 0#8 ∧ (failsAt 2).life = .active ∧ (63#8).toNat ≤ 63 ∧ (failsAt 2).Reliable 2) ∧
    (∀ k, k < 2 → (failsAt k).answers = List.replicate k .ok ++ .fail :: []) :=
  ⟨by decide, ⟨rfl, nofun⟩, ⟨rfl, rfl, by decide⟩, ⟨rfl, rfl, by decide, reliable_failsAt 2⟩, fun _ _ => rfl⟩

theorem witness_ShutdownSendsSixCommands :
    ((0x0800000000000001#64).extractLsb' 56 8 = 0x08#8 ∧ (0x0800000000000001#64).extractLsb' 0 56 ≠ 0#56) ∧
    (down.faultCause = 0#8 ∧ down.life ≠ .active) ∧
    ((failsAt 6).faultCause = 0#8 ∧ (failsAt 6).life = .active ∧ (failsAt 6).Reliable 6) ∧
    (∀ k, k < 6 → (failsAt k).answers = List.replicate k .ok ++ .fail :: []) :=
  ⟨by decide, ⟨rfl, nofun⟩, ⟨rfl, rfl, reliable_failsAt 6⟩, fun _ _ => rfl⟩

theorem witness_Transfers :
    ((failsAt 2).faultCause = 0#8 ∧ (failsAt 1).Reliable 1 ∧ (failsAt 2).Reliable 2) ∧
    ((failsAt 0).faultCause = 0#8 ∧ (failsAt 0).answers = .fail :: []) ∧
    (failsAt 1).answers = List.replicate 1 .ok ++ .fail :: [] :=
  ⟨⟨rfl, reliable_failsAt 1, reliable_failsAt 2⟩, ⟨rfl, rfl⟩, rfl⟩

theorem asked_inv (w : RequestWord) : (asked w).Inv := ⟨ready_inv.1, ready_inv.2, ready_inv.3, ready_inv.4, ready_inv.5,
  ready_inv.6, ready_inv.7, ready_inv.8, ready_inv.9⟩

/-- Both sides: a request of an unfaulted run, and one issued to a faulted DSB. -/
theorem witness_NoStepOfARunIsRefused :
    (asked 0x0300000000000000#64).Inv ∧ ({ asked 0x0300000000000000#64 with faultCause := 0x02#8 } : State).Inv ∧
    step { asked 0x0300000000000000#64 with faultCause := 0x02#8 } = .fault .dsbFaulted :=
  ⟨asked_inv _, ⟨ready_inv.1, ready_inv.2, .inr ⟨.coordRange, rfl⟩, fun h => absurd h (by decide), ready_inv.5,
    fun _ => rfl, ready_inv.7, fun h => absurd rfl h, fun h => nomatch h⟩, rfl⟩

/-- Also the witness of EveryStepKeepsInvariant and ConfigurationIsNeverWritten: a step of a state with the invariant. -/
theorem witness_ReadDisplayIsNeverSent :
    (asked 0x060000000000003F#64).Inv ∧
    ∃ t, step (asked 0x060000000000003F#64) = .next t ∧
      ∃ x ∈ t.trace, x ∉ (asked 0x060000000000003F#64).trace :=
  ⟨asked_inv _, goes (by decide +kernel)⟩

theorem witness_PanelContexts_Serializer_Frame : 0 < tc1.split ∧ tc1.split < 119 ∧ tc1.wellFormed = true ∧
    (∀ (i : Fin 119) (l : Fin 3), panelOf tc1 i = .panel0 → (tc1.lut[3 * i.val + l.val]).toNat ≠ 189) ∧
    (∀ (i : Fin 119) (l : Fin 3), panelOf tc1 i = .panel1 → (tc1.lut[3 * i.val + l.val]).toNat ≠ 168) ∧
    189 < tc1.frameBytes :=
  ⟨by decide, by decide, test_tc1_wellFormed, by decide +kernel, by decide +kernel, by decide⟩

/-- Two states that differ in the rotation and agree on what SHOW reads. -/
theorem witness_ShowOutputIgnoresRotation :
    ready.pbuf = { ready with rot := .deg270 }.pbuf ∧ ready.cfg = { ready with rot := .deg270 }.cfg ∧
    (∃ t, exec .showFrame ready = .next t ∧ t.faultCause = 0#8) ∧
    (∃ t, exec .showFrame { ready with rot := .deg270 } = .next t ∧ t.faultCause = 0#8) :=
  ⟨rfl, rfl, goes (by decide +kernel), goes (by decide +kernel)⟩

theorem witness_SetPixelThenShowScenario :
    [WriteResult.ok, .ok, .ok, .ok, .fail].take 4 = List.replicate 4 .ok := rfl

theorem witness_FaultEntryStopsRequests :
    ready.seq = [] ∧
    ({ asked 0x0300000000000000#64 with faultCause := 0x02#8 }.seq = [] ∧
      { asked 0x0300000000000000#64 with faultCause := 0x02#8 }.host = .request 0x0300000000000000#64 :: [] ∧
      { asked 0x0300000000000000#64 with faultCause := 0x02#8 }.faultCause ≠ 0#8) ∧
    isRequest .clear = true :=
  ⟨rfl, ⟨rfl, rfl, by decide⟩, rfl⟩

/-- The boundary of each clause: the first coordinate out of range, the first code too large; a fault of every cause. -/
theorem witness_ChecksInPriorityOrder_and_BusFailureKeepsWhatWasSent :
    (∃ why, decode (.request 0x0111000001000000#64) = .error why) ∧
    (∃ t, step (asked 0x0111000001000000#64) = .next t ∧ t.faultCause = 0x01#8) ∧
    decode (.request 0x0100070000000000#64) = .ok (.setPixel 0#8 7#8 0#8 0#8 0#8) ∧
    (shape (asked 0x0100070000000000#64).rot).2 ≤ (7#8).toNat ∧
    (∃ t, step (asked 0x0100070000000000#64) = .next t ∧ t.faultCause = 0x02#8) ∧
    decode (.request 0x0600000000000040#64) = .ok (.setBrightness 64#8) ∧ 63 < (64#8).toNat ∧
    (∃ t, step { asked 0x0600000000000040#64 with life := .shutdown } = .next t ∧ t.faultCause = 0x03#8) ∧
    (∃ t, step (asked 0x0600000000000040#64) = .next t ∧ t.faultCause = 0x04#8) ∧
    (∃ t, step { asked 0x0800000000000000#64 with answers := [.ok, .ok, .fail] } = .next t ∧
      t.faultCause = 0x05#8 ∧ t.trace.length = 18) :=
  ⟨⟨_, rfl⟩, goes (by decide +kernel), rfl, by decide, goes (by decide +kernel), rfl, by decide,
    goes (by decide +kernel), goes (by decide +kernel), goes (by decide +kernel)⟩

/-- A faulted DSB with nothing to do, and one that is reset. -/
theorem witness_OnlyResetLeavesTheFaultedState :
    (∃ t, step { ready with faultCause := 0x02#8 } = .next t) ∧
    (∃ t, step { ready with faultCause := 0x02#8, host := [.reset] } = .next t) := by
  exact ⟨⟨_, rfl⟩, ⟨_, rfl⟩⟩

theorem witness_ShutdownIsTerminal :
    down.life = .shutdown ∧ down.faultCause = 0#8 ∧ sends .showFrame = true ∧ isRequest .clear = true ∧
    (∃ t, exec .clear down = .next t) := ⟨rfl, rfl, rfl, rfl, ⟨_, rfl⟩⟩

theorem witness_OnlyNamedRequestsWriteState :
    (∃ t, exec (.setRotation 180#16) ready = .next t ∧ t.rot ≠ ready.rot) ∧
    (∃ t, exec .shutdown ready = .next t ∧ t.life ≠ ready.life ∧ t.trace ≠ ready.trace) ∧
    (∃ t, exec (.setAll 4#8 0#8 0#8) ready = .next t ∧ t.pbuf ≠ ready.pbuf) ∧
    (∃ t, exec .getShape ready = .next t ∧ t.resp ≠ ready.resp) :=
  ⟨goes (by decide +kernel), goes (by decide +kernel), goes (by decide +kernel), goes (by decide +kernel)⟩

theorem witness_ResponseWordLayout :
    (∃ t, exec (.setBrightness 255#8) ready = .next t ∧ t.faultCause ≠ 0#8) ∧
    (∃ t, exec (.setRotation 45#16) ready = .next t ∧ t.faultCause = 0#8 ∧ t.resp.extractLsb' 24 8 = 0x01#8) ∧
    (∃ t, exec .getShape ready = .next t ∧ t.faultCause = 0#8 ∧ t.resp.extractLsb' 24 8 = 0x00#8) :=
  ⟨goes (by decide +kernel), goes (by decide +kernel), goes (by decide +kernel)⟩

theorem witness_PixelBufferKeepsLaneForm_and_TraceOnlyGrows :
    (∀ i : Fin 119, (asked 0x0200000000FFFFFF#64).pbuf[i].extractLsb' 22 10 = 0#10 ∧
      (asked 0x0200000000FFFFFF#64).pbuf[i].extractLsb' 14 2 = 0#2 ∧
      (asked 0x0200000000FFFFFF#64).pbuf[i].extractLsb' 6 2 = 0#2) ∧
    (∃ t, step (asked 0x0200000000FFFFFF#64) = .next t ∧ t.pbuf ≠ ready.pbuf) :=
  ⟨by decide +kernel, goes (by decide +kernel)⟩

theorem witness_InvariantHoldsAfterReset :
    tc1.wellFormed = true ∧ (∀ x ∈ resetSequence tc1, x.legal tc1 = true) :=
  ⟨test_tc1_wellFormed, by decide +kernel⟩

/-- `failsAt 18` after SHUTDOWN and a fault, and the host's reset. -/
def resetting : State := { failsAt 18 with life := .shutdown, faultCause := 0x03#8, host := [.reset] }

/-- A faulted DSB after SHUTDOWN that the host resets, the transport delivering 18 writes and no more. -/
theorem witness_ResetRunsItsSequence :
    resetting.seq = [] ∧ resetting.host = .reset :: [] ∧ resetting.Reliable 18 ∧
    resetting.faultCause ≠ 0#8 :=
  ⟨rfl, rfl, reliable_failsAt 18, by decide⟩

theorem witness_ResetRefusesIllFormedConfiguration :
    ({ tc1 with split := 0 } : Config).wellFormed = false ∧ tc1.wellFormed = true ∧
    (∃ j k : Fin 357, (j.val < 3 * tc1.split ↔ k.val < 3 * tc1.split) ∧ tc1.lut[j] = tc1.lut[k]) :=
  ⟨test_split_zero_refused, test_tc1_wellFormed, 356, 356, Iff.rfl, rfl⟩

/-- The one write of a command fails, and the second write of a display write. -/
theorem witness_FailedTransferEndsReset :
    (pending [0x20#8, 0x00#8]).seq = ⟨.panel1, [0x20#8, 0x00#8]⟩ :: [] ∧
    Transaction.legal tc1 ⟨.panel1, [0x20#8, 0x00#8]⟩ = true ∧ (pending [0x20#8, 0x00#8]).faultCause = 0#8 ∧
    (failsAt 0).answers = List.replicate 0 .ok ++ .fail :: [] ∧
    Transaction.legal tc1 ⟨.panel1, [0x80#8, 0x00#8] ++ zeros 192⟩ = true ∧
    (failsAt 1).answers = List.replicate 1 .ok ++ .fail :: [] ∧
    ([0x80#8, 0x00#8] ++ zeros 192).head? = some 0x80#8 :=
  ⟨rfl, by decide, rfl, rfl, by decide +kernel, rfl, rfl⟩

/-- A halfway level, and an irrational one: √2 / 2 × 63 is near 44.55. -/
theorem witness_EveryRealLevelHasOneCode :
    (0 : ℝ) ≤ √2 / 2 ∧ √2 / 2 ≤ 1 ∧ IsBrightnessCode (√2 / 2) 45#8 ∧ IsBrightnessCode (1 / 126) 0#8 ∧
    ((1 / 126 : ℝ) * 63 = (0 : ℤ) + 1 / 2) := by
  have h1 : (1.414 : ℝ) ≤ √2 := Real.le_sqrt_of_sq_le (by norm_num)
  have h2 : √2 ≤ (1.42 : ℝ) := Real.sqrt_le_iff.2 (by norm_num)
  have hc : ((45#8).toNat : ℝ) = 45 := by norm_num
  refine ⟨by positivity, by linarith, ⟨by positivity, by linarith, ?_⟩, ⟨by norm_num, by norm_num, ?_⟩, by norm_num⟩
  · have hlt : |√2 / 2 * ((63 : Nat) : ℝ) - ((45#8).toNat : ℝ)| < 1 / 2 := by
      rw [hc, abs_lt]; push_cast; constructor <;> linarith
    exact ⟨hlt.le, fun h => absurd h hlt.ne⟩
  · constructor
    · rw [abs_le]; norm_num
    · intro _; rfl

theorem witness_BrightnessCodeRoundsHalfEven_and_Assembler :
    ((0 : Rat) ≤ 1 / 126 ∧ (1 / 126 : Rat) ≤ 1) ∧ |(1 / 126 : Rat) * 63 - (0 : Nat)| = 1 / 2 ∧
    (1 : Rat) < 127 / 126 ∧ (-1 / 126 : Rat) < 0 ∧ brightnessCode (1 / 2) = some 32#8 := by
  refine ⟨⟨by norm_num, by norm_num⟩, by norm_num [abs_of_nonneg], by norm_num, by norm_num, test_brightness_codes.1⟩

end Sys2Proof.Machine.Tests
end

section
/-! PROOFS. What a step takes next, an equation for each case, and that a request of an unfaulted DSB goes on
(00_scope.md rule R12). -/

namespace Sys2Proof.Machine

/-! ## What a step takes next -/

theorem step_idle {s : State} (hs : s.seq = []) (hh : s.host = []) : step s = .next s := by
  simp [step, advance, hs, hh]

theorem step_event {s : State} {e : HostEvent} {rest : List HostEvent} (hs : s.seq = []) (hh : s.host = e :: rest) :
    step s = takeEvent e { s with host := rest } := by
  simp [step, advance, hs, hh]

theorem step_transfer_decoded {s : State} {x : Transaction} {rest : List Transaction} {i : Instr}
    (hs : s.seq = x :: rest) (hd : decode (.transfer x.panel x.bytes) = .ok i) :
    step s = afterTransfer (exec i { s with seq := rest }) := by
  simp [step, advance, hs, runTransfer, hd]

theorem takeRequest_decoded {w : RequestWord} {i : Instr} (hd : decode (.request w) = .ok i) (s : State) :
    takeRequest w s = exec i s := by
  simp [takeRequest, hd]

theorem takeRequest_rejected {w : RequestWord} {why : Reject} (hd : decode (.request w) = .error why) (s : State) :
    takeRequest w s = serve s fun s => .next (raise .illegalRequest w s) := by
  simp [takeRequest, hd]

/-- Settles O5: the step takes the host's event, and the word's decoding picks the arm of `exec`. -/
theorem stepRunsDecodedRequest : Obligations.StepRunsDecodedRequest := by
  intro s w rest i hs hh hd
  rw [step_event hs hh]
  exact takeRequest_decoded hd _

/-! ## A request goes on -/

/-- A request word decodes to one of the eight requests (R46). -/
theorem isRequest_of_decode {w : RequestWord} {i : Instr} (hd : decode (.request w) = .ok i) : isRequest i = true := by
  simp only [decode, decodeRequest] at hd
  repeat' split at hd
  case isFalse => cases hd
  all_goals
    obtain ⟨-, rfl⟩ := checkReserved_ok hd
    rfl

theorem not_readDisplay_of_isRequest {i : Instr} (h : isRequest i = true) : ∀ q data, i ≠ .cmdReadDisplay q data := by
  rintro q data rfl
  cases h

/-- Whatever was sent, the outcome is a next state: a failed write is a fault entry, which is one (log entry 13). -/
theorem Sent.outcome_goes_on (r : Sent) (finish : State → State) : ∃ t, r.outcome finish = .next t := by
  cases r with
  | done u => exact ⟨finish u, rfl⟩
  | failed u => exact ⟨u, rfl⟩

theorem whenActive_goes_on {w : RequestWord} {s : State} {body : State → Result} (hb : ∃ t, body s = .next t) :
    ∃ t, whenActive w s body = .next t := by
  by_cases hl : s.life = .active
  · rwa [whenActive_active hl]
  · exact ⟨_, whenActive_inactive hl w body⟩

/-- An unfaulted DSB completes every request, with a fault entry or without (R12). -/
theorem exec_request_goes_on {i : Instr} {s : State} (hi : isRequest i = true) (hc : s.faultCause = 0#8) :
    ∃ t, exec i s = .next t := by
  cases i with
  | setPixel x y r g b =>
    rw [exec, execSetPixel, serve_ready hc]
    split <;> exact ⟨_, rfl⟩
  | setAll r g b => exact ⟨_, by rw [exec, execSetAll, serve_ready hc]⟩
  | clear => exact ⟨_, by rw [exec, execClear, serve_ready hc]⟩
  | setRotation deg =>
    rw [exec, execSetRotation, serve_ready hc]
    split <;> exact ⟨_, rfl⟩
  | getShape => exact ⟨_, by rw [exec, execGetShape, serve_ready hc]⟩
  | setBrightness code =>
    rw [exec, execSetBrightness, serve_ready hc]
    refine whenActive_goes_on ?_
    split
    · exact ⟨_, rfl⟩
    · exact Sent.outcome_goes_on _ _
  | showFrame =>
    rw [exec, execShow, serve_ready hc]
    exact whenActive_goes_on (Sent.outcome_goes_on _ _)
  | shutdown =>
    rw [exec, execShutdown, serve_ready hc]
    exact whenActive_goes_on (Sent.outcome_goes_on _ _)
  | _ => cases hi

/-- An unfaulted DSB completes every bus command but read-display, with a fault entry or without. -/
theorem exec_transfer_goes_on {p : Panel} {bytes : List Byte} {i : Instr} {s : State}
    (hd : decode (.transfer p bytes) = .ok i) (hr : ∀ q data, i ≠ .cmdReadDisplay q data) (hc : s.faultCause = 0#8) :
    ∃ t, exec i s = .next t := by
  obtain ⟨chunks, -, -, -, -, he⟩ := exec_transfer hd hr
  rw [he s hc]
  exact Sent.outcome_goes_on _ _

/-- A request word issued to an unfaulted DSB has a next state, legal or not (R12, R47). -/
theorem takeRequest_goes_on {w : RequestWord} {s : State} (hc : s.faultCause = 0#8) :
    ∃ t, takeRequest w s = .next t := by
  cases hd : decode (.request w) with
  | error why => exact ⟨_, (takeRequest_rejected hd s).trans (serve_ready hc _)⟩
  | ok i => exact takeRequest_decoded hd s ▸ exec_request_goes_on (isRequest_of_decode hd) hc

/-- A request word issued to a faulted DSB has no step (R85). -/
theorem takeRequest_faulted {w : RequestWord} {s : State} (hc : s.faultCause ≠ 0#8) :
    takeRequest w s = .fault .dsbFaulted := by
  cases hd : decode (.request w) with
  | error why => exact (takeRequest_rejected hd s).trans (serve_faulted hc _)
  | ok i =>
    exact (takeRequest_decoded hd s).trans (exec_faulted (not_readDisplay_of_isRequest (isRequest_of_decode hd)) hc)

end Sys2Proof.Machine
end

section
/-! PROOFS. The invariant of a run under each operation on the state, and from these under every step. -/

namespace Sys2Proof.Machine

/-! ## The operations -/

/-- Between the requests of a run that is not faulted, LIFE is not UNINIT (R19). -/
theorem State.Inv.life_ne_uninit {s : State} (h : s.Inv) (hs : s.seq = []) (hc : s.faultCause = 0#8) :
    s.life ≠ .uninit := by
  intro hl
  rcases h.uninitOnly hl with hne | hf
  · exact hne hs
  · rw [hc] at hf
    cases hf

theorem State.Inv.setHost {s : State} (h : s.Inv) (rest : List HostEvent) : State.Inv { s with host := rest } :=
  { h with }

theorem State.Inv.respond {s : State} (h : s.Inv) {st : Status} {r : BitVec 16}
    (hr : response st r ∈ [0x00000000#32, 0x01000000#32, 0x00001107#32, 0x00000711#32]) :
    (Machine.respond st r s).Inv :=
  { h with respListed := hr }

theorem State.Inv.respond_ok {s : State} (h : s.Inv) : (Machine.respond .ok 0#16 s).Inv := h.respond (by decide)

theorem State.Inv.storePixel {s : State} (h : s.Inv) (o : Nat) {v : Pixel} (hv : pixelLegal v = true) :
    (Machine.storePixel o v s).Inv :=
  { h with pixels := wf_storePixel h.pixels hv }

theorem State.Inv.fillPixels {s : State} (h : s.Inv) {v : Pixel} (hv : pixelLegal v = true) :
    (Machine.fillPixels v s).Inv :=
  { h with pixels := wf_fillPixels hv }

theorem State.Inv.setRot {s : State} (h : s.Inv) (rot : Rotation) : (Machine.setRot rot s).Inv :=
  { h with }

/-- LIFE may take another value than UNINIT when no transfer of a reset is pending (R19). -/
theorem State.Inv.setLife {s : State} (h : s.Inv) (hs : s.seq = []) {l : Life} (hl : l ≠ .uninit) :
    (Machine.setLife l s).Inv :=
  { h with
    resetRunning := fun hne => absurd hs hne
    uninitOnly := fun hu => absurd hu hl }

/-- The entry of a fault of a request (R85); a bus failure is `State.Inv.afterSome`. -/
theorem State.Inv.raise {s : State} (h : s.Inv) (hs : s.seq = []) (hc : s.faultCause = 0#8) {c : Cause}
    (w : RequestWord) : (Machine.raise c w s).Inv :=
  { h with
    causeListed := .inr ⟨c, rfl⟩
    requestClear := fun h0 => by cases c <;> cases h0
    linesIdle := fun _ => h.linesIdle (by rw [hc]; decide)
    resetRunning := fun hne => absurd rfl hne
    uninitOnly := fun hl => absurd hl (h.life_ne_uninit hs hc) }

/-- Deasserting lines that are deasserted changes nothing. -/
theorem foldl_drive_idle (ts : List Transaction) :
    ts.foldl (fun cs t => cs.drive false t.panel) ChipSelect.idle = .idle := by
  induction ts with
  | nil => rfl
  | cons t ts ih => rwa [List.foldl_cons, drive_idle]

/-- Legal transactions sent in full (R50, R76). -/
theorem State.Inv.afterAll {s : State} (h : s.Inv) (hc : s.faultCause = 0#8) {ts : List Transaction}
    (hts : ∀ x ∈ ts, x.legal s.cfg = true) (answers : List WriteResult) : (s.afterAll ts answers).Inv :=
  { h with
    linesIdle := fun _ => by
      rw [State.afterAll, h.linesIdle (by rw [hc]; decide)]
      exact foldl_drive_idle ts
    traceLegal := List.forall_mem_append.2 ⟨h.traceLegal, hts⟩ }

/-- A bus failure after legal transactions (R87). -/
theorem State.Inv.afterSome {s : State} (h : s.Inv) (w : RequestWord) {out : List Transaction}
    (hout : ∀ x ∈ out, x.legal s.cfg = true) (answers : List WriteResult) : (s.afterSome w out answers).Inv :=
  { h with
    causeListed := .inr ⟨.busFailure, rfl⟩
    requestClear := fun h0 => by cases h0
    linesIdle := fun hne => absurd rfl hne
    traceLegal := List.forall_mem_append.2 ⟨h.traceLegal, hout⟩
    resetRunning := fun hne => absurd rfl hne
    uninitOnly := fun _ => .inr rfl }

theorem mem_of_mem_sentBy {ts : List (Transaction × Nat)} {k : Nat} {x : Transaction} (hx : x ∈ sentBy ts k) :
    x ∈ ts.map Prod.fst := by
  induction ts generalizing k with
  | nil => exact hx
  | cons t ts ih =>
    rw [sentBy] at hx
    split at hx
    · cases hx
    · exact List.mem_cons.2 ((List.mem_cons.1 hx).imp_right ih)

/-- Whatever becomes of a sequence of legal transactions, if its last act keeps the invariant. -/
theorem State.Inv.ends {s t : State} {w : RequestWord} {ts : List (Transaction × Nat)} {finish : State → State}
    (h : s.Inv) (hc : s.faultCause = 0#8) (hts : ∀ x ∈ ts.map Prod.fst, x.legal s.cfg = true)
    (hf : ∀ answers, (s.afterAll (ts.map Prod.fst) answers).Inv → (finish (s.afterAll (ts.map Prod.fst) answers)).Inv)
    (ht : Sent.Ends w ts finish s t) : t.Inv := by
  rcases ht with ⟨-, rfl⟩ | ⟨k, rest, -, -, rfl⟩
  · exact hf _ (h.afterAll hc hts _)
  · exact h.afterSome w (fun x hx => hts x (mem_of_mem_sentBy hx)) rest

/-- A reset begins, whatever the registers hold (R96). -/
theorem State.Inv.beginReset {s : State} (h : s.Inv) : (Machine.beginReset s).Inv where
  config := h.config
  pixels := wf_replicate (by decide)
  causeListed := .inl rfl
  requestClear := fun _ => rfl
  respListed := List.mem_cons_self
  linesIdle := fun _ => rfl
  traceLegal := h.traceLegal
  resetRunning := fun _ => ⟨rfl, rfl, List.suffix_rfl⟩
  uninitOnly := fun _ => .inl (List.cons_ne_nil _ _)

/-! ## The requests -/

section
variable {s t : State} (h : s.Inv) (hs : s.seq = [])
include h hs

theorem State.Inv.execSetPixel {x y r g b : Byte} (he : Machine.execSetPixel x y r g b s = .next t) : t.Inv := by
  obtain ⟨hc, he⟩ := serve_next he
  split at he <;> cases he
  · exact (h.storePixel _ (pack_legal _ _ _)).respond_ok
  · exact h.raise hs hc _

omit hs in
/-- SET_ALL and CLEAR, which fill the buffer with a pixel and respond. -/
theorem State.Inv.serve_fill {v : Pixel} (hv : pixelLegal v = true)
    (he : serve s (fun s => .next (Machine.respond .ok 0#16 (Machine.fillPixels v s))) = .next t) : t.Inv := by
  obtain ⟨-, he⟩ := serve_next he
  cases he
  exact (h.fillPixels hv).respond_ok

omit hs in
theorem State.Inv.execSetRotation {deg : BitVec 16} (he : Machine.execSetRotation deg s = .next t) : t.Inv := by
  obtain ⟨-, he⟩ := serve_next he
  split at he <;> cases he
  · exact (h.setRot _).respond_ok
  · exact h.respond (by decide)

omit hs in
theorem State.Inv.execGetShape (he : Machine.execGetShape s = .next t) : t.Inv := by
  obtain ⟨-, he⟩ := serve_next he
  cases he
  exact h.respond (by cases s.rot <;> decide)

theorem State.Inv.execShow (he : Machine.execShow s = .next t) : t.Inv := by
  have hc := (serve_next he).1
  rcases (execShow_next_iff hc).1 he with ⟨-, rfl⟩ | ⟨-, he⟩
  · exact h.raise hs hc _
  · refine h.ends hc ?_ (fun _ hu => hu.respond_ok) he
    simp [showPlan, displayTransaction_legal]

theorem State.Inv.execSetBrightness {code : Byte} (he : Machine.execSetBrightness code s = .next t) : t.Inv := by
  have hc := (serve_next he).1
  rcases (execSetBrightness_next_iff hc).1 he with ⟨-, rfl⟩ | ⟨-, ⟨-, rfl⟩ | ⟨hb, he⟩⟩
  · exact h.raise hs hc _
  · exact h.raise hs hc _
  · refine h.ends hc ?_ (fun _ hu => hu.respond_ok) he
    simp [brightnessPlan, brightness_legal _ hb]

theorem State.Inv.execShutdown (he : Machine.execShutdown s = .next t) : t.Inv := by
  have hc := (serve_next he).1
  rcases (execShutdown_next_iff hc).1 he with ⟨-, rfl⟩ | ⟨-, he⟩
  · exact h.raise hs hc _
  · refine h.ends hc ?_ (fun _ hu => (hu.setLife (l := .shutdown) hs nofun).respond_ok) he
    exact shutdownSequence_legal s.cfg

/-- Every request keeps the invariant. -/
theorem State.Inv.exec_request {i : Instr} (hi : isRequest i = true) (he : exec i s = .next t) : t.Inv := by
  cases i with
  | setPixel x y r g b => exact h.execSetPixel hs he
  | setAll r g b => exact h.serve_fill (pack_legal _ _ _) he
  | clear => exact h.serve_fill (pack_legal _ _ _) he
  | setRotation deg => exact h.execSetRotation he
  | getShape => exact h.execGetShape he
  | setBrightness code => exact h.execSetBrightness hs he
  | showFrame => exact h.execShow hs he
  | shutdown => exact h.execShutdown hs he
  | _ => cases hi

theorem State.Inv.takeRequest {w : RequestWord} (he : Machine.takeRequest w s = .next t) : t.Inv := by
  cases hd : decode (.request w) with
  | error why =>
    rw [takeRequest_rejected hd] at he
    obtain ⟨hc, he⟩ := serve_next he
    cases he
    exact h.raise hs hc w
  | ok i =>
    rw [takeRequest_decoded hd] at he
    exact h.exec_request hs (isRequest_of_decode hd) he

end

/-! ## The transfers of a reset -/

/-- A pending transfer of a run is one of R96, hence of R50. -/
theorem State.Inv.pending_legal {s : State} {x : Transaction} {rest : List Transaction} (h : s.Inv)
    (hs : s.seq = x :: rest) : x.legal s.cfg = true := by
  obtain ⟨-, -, hsuf⟩ := h.resetRunning (by rw [hs]; exact List.cons_ne_nil x rest)
  have hw := h.config
  simp only [Config.wellFormed, Bool.and_eq_true] at hw
  exact resetSequence_legal hw.2 x (hsuf.subset (hs ▸ List.mem_cons_self))

/-- A pending transfer of a run is sent, or a write of it fails; then the reset sequence goes on, ends or is given up
(R87, R96). -/
theorem State.Inv.step_transfer {s : State} {x : Transaction} {rest : List Transaction} (h : s.Inv)
    (hs : s.seq = x :: rest) :
    ∃ u, step s = .next (endReset u) ∧
      Sent.Ends 0#64 [(x, writesOfBytes x.bytes)] id { s with seq := rest } u := by
  obtain ⟨-, hc, -⟩ := h.resetRunning (by rw [hs]; exact List.cons_ne_nil x rest)
  obtain ⟨i, hd, hw⟩ := legal_decodes (h.pending_legal hs)
  have hr := legal_not_read hw
  obtain ⟨u, hu⟩ := exec_transfer_goes_on (s := { s with seq := rest }) hd hr hc
  refine ⟨u, ?_, (exec_transfer_next_iff (s := { s with seq := rest }) hd hr hc).1 hu⟩
  rw [step_transfer_decoded hs hd, hu, afterTransfer]

/-- A transfer that was sent leaves a shorter end of the sequence, or none and an ACTIVE driver (R96, R97). -/
theorem State.Inv.endReset_sent {s : State} {x : Transaction} {rest : List Transaction} (h : s.Inv)
    (hs : s.seq = x :: rest) (answers : List WriteResult) :
    (endReset ({ s with seq := rest }.afterAll [x] answers)).Inv := by
  have hne : s.seq ≠ [] := by rw [hs]; exact List.cons_ne_nil x rest
  obtain ⟨hl, hc, hsuf⟩ := h.resetRunning hne
  have hu : (s.afterAll [x] answers).Inv := h.afterAll hc (by simpa using h.pending_legal hs) answers
  cases rest with
  | nil =>
    have he : endReset ({ s with seq := [] }.afterAll [x] answers) = _ := endReset_last rfl hc
    rw [he]
    exact { hu with
      resetRunning := fun hne => absurd rfl hne
      uninitOnly := fun hl => by cases hl }
  | cons y more =>
    have he : endReset ({ s with seq := y :: more }.afterAll [x] answers) = _ :=
      endReset_more (List.cons_ne_nil y more)
    rw [he]
    exact { hu with
      resetRunning := fun _ => ⟨hl, hc, (List.suffix_cons x _).trans (hs ▸ hsuf)⟩
      uninitOnly := fun _ => .inl (List.cons_ne_nil y more) }

/-- Every transfer of a reset keeps the invariant. -/
theorem State.Inv.after_transfer {s t : State} {x : Transaction} {rest : List Transaction} (h : s.Inv)
    (hs : s.seq = x :: rest) (ht : step s = .next t) : t.Inv := by
  obtain ⟨u, hu, he⟩ := h.step_transfer hs
  obtain rfl : endReset u = t := Host.Outcome.next.inj (hu.symm.trans ht)
  rcases he with ⟨-, rfl⟩ | ⟨k, answers, hk, -, rfl⟩
  · exact h.endReset_sent hs _
  · rw [endReset_faulted (by rw [State.afterSome, busFailure_faultCause]; decide)]
    have hout : ∀ y ∈ sentBy [(x, writesOfBytes x.bytes)] k, y.legal s.cfg = true := fun y hy => by
      rw [List.mem_singleton.1 (mem_of_mem_sentBy hy)]
      exact h.pending_legal hs
    exact h.afterSome 0#64 hout answers

/-! ## Every step -/

/-- Settles O38: a step is a transfer of the reset, an idle step, a reset or a request, and each keeps the invariant. -/
theorem everyStepKeepsInvariant : Obligations.EveryStepKeepsInvariant := by
  intro s t h ht
  cases hs : s.seq with
  | cons x rest => exact h.after_transfer hs ht
  | nil =>
    cases hh : s.host with
    | nil =>
      rw [step_idle hs hh] at ht
      cases ht
      exact h
    | cons e rest =>
      rw [step_event hs hh] at ht
      cases e with
      | reset =>
        cases ht
        exact (h.setHost rest).beginReset
      | request w => exact (h.setHost rest).takeRequest hs ht

/-- Settles O45: transfers, resets and idle steps go on, and a request goes on or finds the DSB faulted. -/
theorem noStepOfARunIsRefused : Obligations.NoStepOfARunIsRefused := by
  intro s h
  cases hs : s.seq with
  | cons x rest =>
    obtain ⟨u, hu, -⟩ := h.step_transfer hs
    exact .inl ⟨_, hu⟩
  | nil =>
    cases hh : s.host with
    | nil => exact .inl ⟨s, step_idle hs hh⟩
    | cons e rest =>
      rw [step_event hs hh]
      cases e with
      | reset => exact .inl ⟨_, rfl⟩
      | request w =>
        by_cases hc : s.faultCause = 0#8
        · exact .inl (takeRequest_goes_on (s := { s with host := rest }) hc)
        · exact .inr ⟨takeRequest_faulted (s := { s with host := rest }) hc, hc⟩

end Sys2Proof.Machine
end

section
/-! PROOFS. The checks of a configuration in the words of 00_scope.md rule R9, and the bound that follows from them. -/

namespace Sys2Proof

/-- The first `n` entries are without repetition: no two entries before `n` are equal. -/
theorem nodup_take_iff {α : Type} {l : List α} {n : Nat} : (l.take n).Nodup ↔
    ∀ (j k : Nat) (hj : j < l.length) (hk : k < l.length), j < n → k < n → l[j] = l[k] → j = k := by
  constructor
  · intro h j k hj hk hjn hkn e
    have hlt {i : Nat} (hi : i < l.length) (hin : i < n) : i < (l.take n).length := by simp; omega
    exact (h.getElem_inj_iff (hi := hlt hj hjn) (hj := hlt hk hkn)).1 (by simpa using e)
  · rw [List.nodup_iff_injective_getElem]
    rintro h ⟨j, hj⟩ ⟨k, hk⟩ e
    rw [List.length_take, Nat.lt_min] at hj hk
    exact Fin.ext (h j k hj.2 hk.2 hj.1 hk.1 (by simpa using e))

/-- The entries from `n` on are without repetition: no two entries from `n` on are equal. -/
theorem nodup_drop_iff {α : Type} {l : List α} {n : Nat} : (l.drop n).Nodup ↔
    ∀ (j k : Nat) (hj : j < l.length) (hk : k < l.length), n ≤ j → n ≤ k → l[j] = l[k] → j = k := by
  constructor
  · intro h j k hj hk hjn hkn e
    have hlt {i : Nat} (hi : i < l.length) (hin : n ≤ i) : i - n < (l.drop n).length := by simp; omega
    have hsub := (h.getElem_inj_iff (hi := hlt hj hjn) (hj := hlt hk hkn)).1 (by simpa [hjn, hkn] using e)
    omega
  · rw [List.nodup_iff_injective_getElem]
    rintro h ⟨j, hj⟩ ⟨k, hk⟩ e
    rw [List.length_drop] at hj hk
    have hjk := h (n + j) (n + k) (by omega) (by omega) (by omega) (by omega) (by simpa using e)
    exact Fin.ext (Nat.add_left_cancel hjk)

/-- Distinct bytes below `m` are at most `m` bytes. -/
theorem length_le_of_nodup {l : List Byte} {m : Nat} (hn : l.Nodup) (hm : ∀ b ∈ l, b.toNat < m) : l.length ≤ m := by
  have hnat : (l.map BitVec.toNat).Nodup := hn.map fun a b => BitVec.eq_of_toNat_eq
  have hsub : l.map BitVec.toNat ⊆ List.range m := by
    intro n hn
    obtain ⟨b, hb, rfl⟩ := List.mem_map.1 hn
    exact List.mem_range.2 (hm b hb)
  simpa using (hnat.subperm hsub).length_le

namespace Config

theorem splitLegal_iff (c : Config) : c.splitLegal = true ↔ 0 < c.split ∧ c.split < 119 := decide_eq_true_iff

theorem frameLegal_iff (c : Config) : c.frameLegal = true ↔ 1 ≤ c.frameBytes := decide_eq_true_iff

theorem brightnessLegal_iff (c : Config) : c.brightnessLegal = true ↔ c.initBrightness.toNat ≤ 63 := decide_eq_true_iff

/-- Check (c): the entries 3·i + l are all 357 entries of the table. -/
theorem lutInFrame_iff (c : Config) : c.lutInFrame = true ↔
    ∀ (i : Fin 119) (l : Fin 3), (c.lut[3 * i.val + l.val]).toNat < c.frameBytes := by
  simp only [lutInFrame, List.all_eq_true, decide_eq_true_eq]
  constructor
  · intro h i l
    exact h _ (by simp)
  · intro h b hb
    obtain ⟨k, hk, rfl⟩ := List.getElem_of_mem hb
    rw [Vector.length_toList] at hk
    simpa [Nat.div_add_mod] using h ⟨k / 3, by omega⟩ ⟨k % 3, by omega⟩

/-- Check (d): the two runs are the entries on either side of 3·SPLIT. -/
theorem runsDistinct_iff (c : Config) : c.runsDistinct = true ↔
    ∀ j k : Fin 357, (j.val < 3 * c.split ↔ k.val < 3 * c.split) → c.lut[j] = c.lut[k] → j = k := by
  simp only [runsDistinct, Bool.and_eq_true, decide_eq_true_eq, nodup_take_iff, nodup_drop_iff, Vector.length_toList,
    Vector.getElem_toList]
  constructor
  · rintro ⟨h0, h1⟩ j k hjk e
    by_cases hj : j.val < 3 * c.split
    · exact Fin.ext (h0 j k j.isLt k.isLt hj (hjk.1 hj) e)
    · have hk : ¬ k.val < 3 * c.split := fun hk => hj (hjk.2 hk)
      exact Fin.ext (h1 j k j.isLt k.isLt (Nat.le_of_not_lt hj) (Nat.le_of_not_lt hk) e)
  · intro h
    refine ⟨fun j k hj hk h0j h0k e => ?_, fun j k hj hk h1j h1k e => ?_⟩
    · exact Fin.val_eq_of_eq (h ⟨j, hj⟩ ⟨k, hk⟩ (iff_of_true h0j h0k) e)
    · exact Fin.val_eq_of_eq (h ⟨j, hj⟩ ⟨k, hk⟩ (iff_of_false (Nat.not_lt.2 h1j) (Nat.not_lt.2 h1k)) e)

theorem wellFormed_iff (c : Config) : c.wellFormed = true ↔
    (0 < c.split ∧ c.split < 119) ∧ 1 ≤ c.frameBytes ∧
    (∀ (i : Fin 119) (l : Fin 3), (c.lut[3 * i.val + l.val]).toNat < c.frameBytes) ∧
    (∀ j k : Fin 357, (j.val < 3 * c.split ↔ k.val < 3 * c.split) → c.lut[j] = c.lut[k] → j = k) ∧
    c.initBrightness.toNat ≤ 63 := by
  simp only [wellFormed, Bool.and_eq_true, splitLegal_iff, frameLegal_iff, lutInFrame_iff, runsDistinct_iff,
    brightnessLegal_iff, and_assoc]

/-- Each run is distinct bytes below `m`, when every byte of the table is, so it has at most `m` entries. -/
theorem runs_le_of_lt {c : Config} {m : Nat} (hs : c.splitLegal = true) (hd : c.runsDistinct = true)
    (hm : ∀ b ∈ c.lut.toList, b.toNat < m) : 3 * max c.split (119 - c.split) ≤ m := by
  simp only [runsDistinct, Bool.and_eq_true, decide_eq_true_eq] at hd
  rw [splitLegal_iff] at hs
  have h0 := length_le_of_nodup hd.1 fun b hb => hm b (List.mem_of_mem_take hb)
  have h1 := length_le_of_nodup hd.2 fun b hb => hm b (List.mem_of_mem_drop hb)
  rw [List.length_take, Vector.length_toList] at h0
  rw [List.length_drop, Vector.length_toList] at h1
  omega

theorem runs_bounded {c : Config} (h : c.wellFormed = true) :
    3 * max c.split (119 - c.split) ≤ c.frameBytes ∧ 3 * max c.split (119 - c.split) ≤ 256 := by
  simp only [wellFormed, Bool.and_eq_true] at h
  obtain ⟨⟨⟨⟨hs, -⟩, hl⟩, hd⟩, -⟩ := h
  simp only [lutInFrame, List.all_eq_true, decide_eq_true_eq] at hl
  exact ⟨runs_le_of_lt hs hd hl, runs_le_of_lt hs hd fun b _ => b.isLt⟩

end Config

/-- Settles O41: check by check, the bound by counting distinct bytes, and construction by the two laws of `build`. -/
theorem resetRefusesIllFormedConfiguration : Obligations.ResetRefusesIllFormedConfiguration :=
  ⟨Config.wellFormed_iff, fun _ => Config.runs_bounded, fun _ => Machine.build_illFormed,
    fun _ h => ⟨_, Machine.build_wellFormed h, rfl⟩, Machine.cfg_wellFormed⟩

end Sys2Proof
end

section
/-! PROOFS. Everything an instruction, and then a step, can do to the state when it goes on, said once, with what follows
for each field (10_state.md rules R17 to R25). -/

namespace Sys2Proof.Machine

/-! ## What an instruction can do -/

/-- Everything instruction `i` can do to `s` when it goes on: which fields it writes, and under which conditions. Which
cause was raised and which transactions were sent is in the `_next_iff` lemmas; of a transaction it is kept that it holds
at least one byte (R25). -/
inductive Effect (s : State) : Instr → State → Prop
  /-- A check of a request failed (R85). -/
  | raised {i : Instr} (hi : isRequest i = true) (c : Cause) (w : RequestWord) : Effect s i (raise c w s)
  /-- SET_PIXEL (R59). -/
  | stored {x y r g b : Byte} (hin : inRange s.rot x.toNat y.toNat = true) :
      Effect s (.setPixel x y r g b)
        (respond .ok 0#16 (storePixel (addr s.rot x.toNat y.toNat) (colorPixel r g b) s))
  /-- SET_ALL (R60). -/
  | filled {r g b : Byte} : Effect s (.setAll r g b) (respond .ok 0#16 (fillPixels (colorPixel r g b) s))
  /-- CLEAR (R61). -/
  | cleared : Effect s .clear (respond .ok 0#16 (fillPixels (pack 0#6 0#6 0#6) s))
  /-- SET_ROTATION of a legal angle (R66). -/
  | rotated {deg : BitVec 16} {rot : Rotation} (hd : rotationOf deg = some rot) :
      Effect s (.setRotation deg) (respond .ok 0#16 (setRot rot s))
  /-- SET_ROTATION of any other angle (R66). -/
  | notRotated {deg : BitVec 16} (hd : rotationOf deg = none) :
      Effect s (.setRotation deg) (respond .invalidRotation 0#16 s)
  /-- GET_SHAPE (R68). -/
  | shapeRead : Effect s .getShape (respond .ok (shapeResult (shape s.rot)) s)
  /-- SHOW or SET_BRIGHTNESS, sent in full (R73, R80). -/
  | completed {i : Instr} (hi : sends i = true) (hl : s.life = .active) {ts : List Transaction}
      (hb : ∀ x ∈ ts, x.bytes ≠ []) (answers : List WriteResult) :
      Effect s i (respond .ok 0#16 (s.afterAll ts answers))
  /-- SHUTDOWN, sent in full (R81). -/
  | shutDown (hl : s.life = .active) {ts : List Transaction} (hb : ∀ x ∈ ts, x.bytes ≠ [])
      (answers : List WriteResult) :
      Effect s .shutdown (respond .ok 0#16 (setLife .shutdown (s.afterAll ts answers)))
  /-- A bus command, sent in full (R77, R78). -/
  | transferred {i : Instr} (hi : isRequest i = false) {x : Transaction} (hb : x.bytes ≠ [])
      (answers : List WriteResult) : Effect s i (s.afterAll [x] answers)
  /-- A write of a sending request or of a bus command failed (R87). -/
  | busFailed {i : Instr} (hi : (sends i = true ∧ s.life = .active) ∨ isRequest i = false) (w : RequestWord)
      {out : List Transaction} (hb : ∀ x ∈ out, x.bytes ≠ []) (answers : List WriteResult) :
      Effect s i (s.afterSome w out answers)

/-- What sends ends with all of it sent, or with a bus failure after a part of it. -/
theorem Effect.of_ends {i : Instr} {s t : State} {w : RequestWord} {ts : List (Transaction × Nat)}
    {finish : State → State} (hi : (sends i = true ∧ s.life = .active) ∨ isRequest i = false)
    (hb : ∀ x ∈ ts.map Prod.fst, x.bytes ≠ [])
    (hf : ∀ answers, Effect s i (finish (s.afterAll (ts.map Prod.fst) answers)))
    (h : Sent.Ends w ts finish s t) : Effect s i t := by
  rcases h with ⟨-, rfl⟩ | ⟨k, rest, -, -, rfl⟩
  · exact hf _
  · exact .busFailed hi w (fun x hx => hb x (mem_of_mem_sentBy hx)) rest

theorem showPlan_bytes (s : State) : ∀ x ∈ (showPlan s).map Prod.fst, x.bytes ≠ [] := by
  simp [showPlan, displayTransaction, displayBytes]

theorem brightnessPlan_bytes (code : Byte) : ∀ x ∈ (brightnessPlan code).map Prod.fst, x.bytes ≠ [] := by
  simp [brightnessPlan, commandTransaction, commandBytes]

theorem shutdownPlan_bytes (s : State) : ∀ x ∈ (shutdownPlan s).map Prod.fst, x.bytes ≠ [] := by
  simp [shutdownPlan, panelShutdownPlan, panelShutdown, commandTransaction, commandBytes]

theorem isRequest_of_sends {i : Instr} (h : sends i = true) : isRequest i = true := by
  cases i with
  | setBrightness code => rfl
  | showFrame => rfl
  | shutdown => rfl
  | _ => cases h

/-- A bus command is decoded from the bytes of its transaction (R50, R52). -/
theorem decode_of_busCommand {i : Instr} (h : isRequest i = false) :
    ∃ (p : Panel) (cmd : Command) (data : List Byte),
      decode (.transfer p (cmd.byte :: data)) = .ok i := by
  cases i with
  | cmdSoftReset p data => exact ⟨p, .softReset, data, rfl⟩
  | cmdGlobalBrightness p data => exact ⟨p, .globalBrightness, data, rfl⟩
  | cmdComPinCtrl p data => exact ⟨p, .comPinCtrl, data, rfl⟩
  | cmdRowPinCtrl p data => exact ⟨p, .rowPinCtrl, data, rfl⟩
  | cmdWriteDisplay p addr frame => exact ⟨p, .writeDisplay, addr :: frame, rfl⟩
  | cmdReadDisplay p data => exact ⟨p, .readDisplay, data, rfl⟩
  | cmdSystemCtrl p data => exact ⟨p, .systemCtrl, data, rfl⟩
  | cmdScrollCtrl p data => exact ⟨p, .scrollCtrl, data, rfl⟩
  | _ => cases h

theorem not_readDisplay_of_next {i : Instr} {s t : State} (h : exec i s = .next t) :
    ∀ q data, i ≠ .cmdReadDisplay q data := by
  rintro q data rfl
  cases h

/-- An instruction that goes on was taken by a DSB that is not faulted (R85). -/
theorem faultCause_of_exec_next {i : Instr} {s t : State} (h : exec i s = .next t) : s.faultCause = 0#8 := by
  by_contra hc
  rw [exec_faulted (not_readDisplay_of_next h) hc] at h
  cases h

/-- What a request does when it goes on. -/
theorem effect_of_request {i : Instr} {s t : State} (hi : isRequest i = true) (h : exec i s = .next t) :
    Effect s i t := by
  have hc := faultCause_of_exec_next h
  cases i with
  | setPixel x y r g b =>
    rw [exec, execSetPixel, serve_ready hc] at h
    split at h <;> cases h
    · exact .stored ‹_›
    · exact .raised rfl _ _
  | setAll r g b =>
    rw [exec, execSetAll, serve_ready hc] at h
    cases h
    exact .filled
  | clear =>
    rw [exec, execClear, serve_ready hc] at h
    cases h
    exact .cleared
  | setRotation deg =>
    rw [exec, execSetRotation, serve_ready hc] at h
    split at h <;> cases h
    · exact .rotated ‹_›
    · exact .notRotated ‹_›
  | getShape =>
    rw [exec, execGetShape, serve_ready hc] at h
    cases h
    exact .shapeRead
  | setBrightness code =>
    rcases (execSetBrightness_next_iff hc).1 h with ⟨-, rfl⟩ | ⟨hl, ⟨-, rfl⟩ | ⟨-, h⟩⟩
    · exact .raised rfl _ _
    · exact .raised rfl _ _
    · exact .of_ends (.inl ⟨rfl, hl⟩) (brightnessPlan_bytes code) (.completed rfl hl (brightnessPlan_bytes code)) h
  | showFrame =>
    rcases (execShow_next_iff hc).1 h with ⟨-, rfl⟩ | ⟨hl, h⟩
    · exact .raised rfl _ _
    · exact .of_ends (.inl ⟨rfl, hl⟩) (showPlan_bytes s) (.completed rfl hl (showPlan_bytes s)) h
  | shutdown =>
    rcases (execShutdown_next_iff hc).1 h with ⟨-, rfl⟩ | ⟨hl, h⟩
    · exact .raised rfl _ _
    · exact .of_ends (.inl ⟨rfl, hl⟩) (shutdownPlan_bytes s) (.shutDown hl (shutdownPlan_bytes s)) h
  | _ => cases hi

/-- What a bus command does when it goes on. -/
theorem effect_of_busCommand {i : Instr} {s t : State} (hi : isRequest i = false) (h : exec i s = .next t) :
    Effect s i t := by
  obtain ⟨p, cmd, data, hd⟩ := decode_of_busCommand hi
  have hne : cmd.byte :: data ≠ [] := List.cons_ne_nil _ _
  have he := (exec_transfer_next_iff hd (not_readDisplay_of_next h) (faultCause_of_exec_next h)).1 h
  exact .of_ends (.inr hi) (by simp) (.transferred hi hne) he

theorem effect_of_exec {i : Instr} {s t : State} (h : exec i s = .next t) : Effect s i t := by
  cases hi : isRequest i with
  | true => exact effect_of_request hi h
  | false => exact effect_of_busCommand hi h

/-! ## What follows for each field -/

section
variable {i : Instr} {s t : State} (h : Effect s i t)
include h

theorem Effect.host_eq : t.host = s.host := by cases h <;> rfl

theorem Effect.cfg_eq : t.cfg = s.cfg := by cases h <;> rfl

/-- Who writes ROT (R18). -/
theorem Effect.rot_cases : t.rot = s.rot ∨ ∃ deg rot, i = .setRotation deg ∧ rotationOf deg = some rot := by
  cases h with
  | rotated hd => exact .inr ⟨_, _, rfl, hd⟩
  | _ => exact .inl rfl

/-- Who writes LIFE (R19). -/
theorem Effect.life_cases : t.life = s.life ∨
    (i = .shutdown ∧ s.life = .active ∧ t.life = .shutdown ∧ t.faultCause = s.faultCause) := by
  cases h with
  | shutDown hl => exact .inr ⟨rfl, hl, rfl, rfl⟩
  | _ => exact .inl rfl

/-- Who writes PBUF (R22). -/
theorem Effect.pbuf_cases : t.pbuf = s.pbuf ∨
    (∃ x y r g b, i = .setPixel x y r g b) ∨ (∃ r g b, i = .setAll r g b) ∨ i = .clear := by
  cases h with
  | stored => exact .inr (.inl ⟨_, _, _, _, _, rfl⟩)
  | filled => exact .inr (.inr (.inl ⟨_, _, _, rfl⟩))
  | cleared => exact .inr (.inr (.inr rfl))
  | _ => exact .inl rfl

/-- Who writes RESP (R20). -/
theorem Effect.resp_cases : t.resp = s.resp ∨ (isRequest i = true ∧ t.faultCause = s.faultCause) := by
  cases h with
  | raised => exact .inl rfl
  | transferred => exact .inl rfl
  | busFailed => exact .inl rfl
  | completed hi => exact .inr ⟨isRequest_of_sends hi, rfl⟩
  | _ => exact .inr ⟨rfl, rfl⟩

/-- Who writes TRACE, the lines or the answers that are left (R24, R25). -/
theorem Effect.bus_cases : (t.trace = s.trace ∧ t.cs = s.cs ∧ t.answers = s.answers) ∨
    (sends i = true ∧ s.life = .active) ∨ isRequest i = false := by
  cases h with
  | completed hi hl => exact .inr (.inl ⟨hi, hl⟩)
  | shutDown hl => exact .inr (.inl ⟨rfl, hl⟩)
  | transferred hi => exact .inr (.inr hi)
  | busFailed hi => exact .inr hi
  | _ => exact .inl ⟨rfl, rfl, rfl⟩

/-- TRACE only grows, by transactions of at least one byte (R25). -/
theorem Effect.trace_grows : ∃ out, t.trace = s.trace ++ out ∧ ∀ x ∈ out, x.bytes ≠ [] := by
  cases h with
  | completed _ _ hb => exact ⟨_, rfl, hb⟩
  | shutDown _ hb => exact ⟨_, rfl, hb⟩
  | transferred _ hb => exact ⟨_, rfl, by simpa using hb⟩
  | busFailed _ _ hb => exact ⟨_, rfl, hb⟩
  | _ => exact ⟨[], (List.append_nil _).symm, by simp⟩

/-- Every pixel that is written has the form of R23. -/
theorem Effect.keeps_wf (hs : Memory.wf s.pbuf = true) : Memory.wf t.pbuf = true := by
  cases h with
  | stored => exact wf_storePixel hs (pack_legal _ _ _)
  | filled => exact wf_fillPixels (s := s) (pack_legal _ _ _)
  | cleared => exact wf_fillPixels (s := s) (pack_legal _ _ _)
  | _ => exact hs

end

/-- The four legal angles (R66). -/
theorem legalAngle_of_rotationOf {deg : BitVec 16} {rot : Rotation} (h : rotationOf deg = some rot) :
    deg ∈ [0#16, 90#16, 180#16, 270#16] := by
  unfold rotationOf at h
  split_ifs at h <;> simp [*]

/-- Settles O33: who writes each field, from what an instruction can do. -/
theorem onlyNamedRequestsWriteState : Obligations.OnlyNamedRequestsWriteState := by
  intro i s t h
  have hc := faultCause_of_exec_next h
  have he := effect_of_exec h
  refine ⟨fun hne => ?_, fun hne => ?_, fun hne => ?_, fun hne => ?_, fun hne => ?_, he.host_eq⟩
  · obtain ⟨deg, rot, hi, hd⟩ := he.rot_cases.resolve_left hne
    exact ⟨deg, hi, legalAngle_of_rotationOf hd⟩
  · obtain ⟨hi, hl, ht, hf⟩ := he.life_cases.resolve_left hne
    exact ⟨hi, hl, ht, hf.trans hc⟩
  · exact he.pbuf_cases.resolve_left hne
  · obtain ⟨hi, hf⟩ := he.resp_cases.resolve_left hne
    exact ⟨hi, hf.trans hc⟩
  · exact (he.bus_cases.resolve_left fun hq => hne hq.1).imp_left And.left

/-! ## LIFE = SHUTDOWN -/

/-- A sending request checks LIFE first (R73, R80, R81, R84). -/
theorem exec_sends_inactive {i : Instr} {s : State} (hi : sends i = true) (hc : s.faultCause = 0#8)
    (hl : s.life ≠ .active) : ∃ w, exec i s = .next (raise .notActive w s) := by
  cases i with
  | setBrightness code => exact ⟨_, (execSetBrightness_next_iff hc).2 (.inl ⟨hl, rfl⟩)⟩
  | showFrame => exact ⟨_, (execShow_next_iff hc).2 (.inl ⟨hl, rfl⟩)⟩
  | shutdown => exact ⟨_, (execShutdown_next_iff hc).2 (.inl ⟨hl, rfl⟩)⟩
  | _ => cases hi

/-- Settles O32: LIFE is written and the bus is used only by a request of an ACTIVE driver. -/
theorem shutdownIsTerminal : Obligations.ShutdownIsTerminal := by
  intro s i hl hc
  have hna : s.life ≠ .active := by rw [hl]; decide
  refine ⟨fun t h => ?_, fun hi => ?_, fun hi => ?_⟩
  · rcases (effect_of_exec h).life_cases with ht | ⟨-, ha, -⟩
    · exact ht.trans hl
    · exact absurd ha hna
  · obtain ⟨w, h⟩ := exec_sends_inactive hi hc hna
    exact ⟨_, h, rfl, rfl, rfl⟩
  · obtain ⟨t, h⟩ := exec_request_goes_on hi hc
    rcases (effect_of_exec h).bus_cases with hq | ⟨-, ha⟩ | hb
    · exact ⟨t, h, hq⟩
    · exact absurd ha hna
    · rw [hi] at hb
      cases hb

/-! ## What a step can do -/

/-- Everything a step can do when it goes on (R12, R15). -/
inductive StepEffect (s : State) : State → Prop
  /-- There is nothing to do (log entry 2). -/
  | idle : StepEffect s s
  /-- The host's reset (R96). -/
  | reset (rest : List HostEvent) : StepEffect s (beginReset { s with host := rest })
  /-- An illegal request word (R47). -/
  | rejected (rest : List HostEvent) (w : RequestWord) :
      StepEffect s (raise .illegalRequest w { s with host := rest })
  /-- A request (R46). -/
  | request {rest : List HostEvent} {i : Instr} {t : State} (h : Effect { s with host := rest } i t) : StepEffect s t
  /-- A transfer of a reset (R96). -/
  | transfer {rest : List Transaction} {i : Instr} {u : State} (h : Effect { s with seq := rest } i u) :
      StepEffect s (endReset u)

theorem afterTransfer_next {r : Result} {t : State} (h : afterTransfer r = .next t) :
    ∃ u, r = .next u ∧ endReset u = t := by
  cases r with
  | next u => exact ⟨u, rfl, Host.Outcome.next.inj h⟩
  | fault f => cases h
  | refused r => cases h

theorem step_transfer_rejected {s : State} {x : Transaction} {rest : List Transaction} {why : Reject}
    (hs : s.seq = x :: rest) (hd : decode (.transfer x.panel x.bytes) = .error why) :
    step s = .refused (.noTransaction why) := by
  simp [step, advance, hs, runTransfer, hd]

theorem stepEffect_of_transfer {s t : State} {x : Transaction} {rest : List Transaction} (hs : s.seq = x :: rest)
    (h : step s = .next t) : StepEffect s t := by
  cases hd : decode (.transfer x.panel x.bytes) with
  | error why =>
    rw [step_transfer_rejected hs hd] at h
    cases h
  | ok i =>
    rw [step_transfer_decoded hs hd] at h
    obtain ⟨u, hu, rfl⟩ := afterTransfer_next h
    exact .transfer (effect_of_exec hu)

theorem stepEffect_of_request {s t : State} {w : RequestWord} {rest : List HostEvent}
    (h : takeRequest w { s with host := rest } = .next t) : StepEffect s t := by
  cases hd : decode (.request w) with
  | error why =>
    rw [takeRequest_rejected hd] at h
    obtain ⟨-, h⟩ := serve_next h
    cases h
    exact .rejected rest w
  | ok i =>
    rw [takeRequest_decoded hd] at h
    exact .request (effect_of_exec h)

theorem stepEffect_of_step {s t : State} (h : step s = .next t) : StepEffect s t := by
  cases hs : s.seq with
  | cons x rest => exact stepEffect_of_transfer hs h
  | nil =>
    cases hh : s.host with
    | nil =>
      rw [step_idle hs hh] at h
      cases h
      exact .idle
    | cons e rest =>
      rw [step_event hs hh] at h
      cases e with
      | reset =>
        cases h
        exact .reset rest
      | request w => exact stepEffect_of_request h

@[simp] theorem endReset_pbuf (s : State) : (endReset s).pbuf = s.pbuf := by unfold endReset; split <;> rfl
@[simp] theorem endReset_trace (s : State) : (endReset s).trace = s.trace := by unfold endReset; split <;> rfl
@[simp] theorem endReset_cfg (s : State) : (endReset s).cfg = s.cfg := by unfold endReset; split <;> rfl

/-- Settles O37: neither an instruction nor the sequencer writes the configuration. -/
theorem configurationIsNeverWritten : Obligations.ConfigurationIsNeverWritten := by
  intro s t h
  cases stepEffect_of_step h with
  | request he => exact he.cfg_eq
  | transfer he => exact (endReset_cfg _).trans he.cfg_eq
  | _ => rfl

/-- Settles O36: an instruction only appends to TRACE, and nothing else in a step writes it. -/
theorem traceOnlyGrows : Obligations.TraceOnlyGrows := by
  intro s t h
  cases stepEffect_of_step h with
  | request he => exact he.trace_grows
  | transfer he =>
    rw [endReset_trace]
    exact he.trace_grows
  | _ => exact ⟨[], (List.append_nil _).symm, by simp⟩

theorem StepEffect.keeps_wf {s t : State} (h : StepEffect s t) (hs : Memory.wf s.pbuf = true) :
    Memory.wf t.pbuf = true := by
  cases h with
  | idle => exact hs
  | reset rest => exact wf_replicate (by decide)
  | rejected rest w => exact hs
  | request he => exact he.keeps_wf hs
  | transfer he =>
    rw [endReset_pbuf]
    exact he.keeps_wf hs

/-! ## The form of a slot -/

/-- A field is 0 when each of its bits is. -/
theorem extractLsb'_eq_zero_iff (v : Pixel) (lo n : Nat) :
    v.extractLsb' lo n = 0#n ↔ ∀ j, lo ≤ j → j < lo + n → v.getLsbD j = false := by
  constructor
  · intro h j hlo hj
    have hb : (v.extractLsb' lo n).getLsbD (j - lo) = false := by rw [h, BitVec.getLsbD_zero]
    simpa [show j - lo < n by omega, show lo + (j - lo) = j by omega] using hb
  · intro h
    apply BitVec.eq_of_getLsbD_eq
    intro j hj
    simp [hj, h (lo + j) (by omega) (by omega)]

/-- The mask of R23 selects the bits [31:22], [15:14] and [7:6]. -/
theorem laneMask_getLsbD : ∀ j : Fin 32, (0xFFC0C0C0#32).getLsbD j =
    decide (22 ≤ j.val ∨ (14 ≤ j.val ∧ j.val < 16) ∨ (6 ≤ j.val ∧ j.val < 8)) := by
  decide

theorem pixelLegal_iff_bits (v : Pixel) : pixelLegal v = true ↔
    ∀ j, j < 32 → (22 ≤ j ∨ (14 ≤ j ∧ j < 16) ∨ (6 ≤ j ∧ j < 8)) → v.getLsbD j = false := by
  rw [pixelLegal, beq_iff_eq]
  constructor
  · intro h j hj hm
    have hb : (v &&& 0xFFC0C0C0#32).getLsbD j = false := by rw [h, BitVec.getLsbD_zero]
    rw [BitVec.getLsbD_and, laneMask_getLsbD ⟨j, hj⟩, decide_eq_true hm, Bool.and_true] at hb
    exact hb
  · intro h
    apply BitVec.eq_of_getLsbD_eq
    intro j hj
    rw [BitVec.getLsbD_and, laneMask_getLsbD ⟨j, hj⟩, BitVec.getLsbD_zero]
    by_cases hm : 22 ≤ j ∨ (14 ≤ j ∧ j < 16) ∨ (6 ≤ j ∧ j < 8)
    · rw [h j hj hm, Bool.false_and]
    · rw [decide_eq_false hm, Bool.and_false]

/-- The check of a slot in the words of R23. -/
theorem pixelLegal_iff_fields (v : Pixel) : pixelLegal v = true ↔
    v.extractLsb' 22 10 = 0#10 ∧ v.extractLsb' 14 2 = 0#2 ∧ v.extractLsb' 6 2 = 0#2 := by
  simp only [pixelLegal_iff_bits, extractLsb'_eq_zero_iff]
  constructor
  · intro h
    exact ⟨fun j _ _ => h j (by omega) (by omega), fun j _ _ => h j (by omega) (by omega),
      fun j _ _ => h j (by omega) (by omega)⟩
  · rintro ⟨h22, h14, h6⟩ j hj (hm | ⟨hlo, hhi⟩ | ⟨hlo, hhi⟩)
    · exact h22 j hm hj
    · exact h14 j hlo hhi
    · exact h6 j hlo hhi

/-- The check of the buffer in the words of R23. -/
theorem wf_iff_fields (m : Memory) : Memory.wf m = true ↔ ∀ i : Fin 119,
    m[i].extractLsb' 22 10 = 0#10 ∧ m[i].extractLsb' 14 2 = 0#2 ∧ m[i].extractLsb' 6 2 = 0#2 := by
  simp only [wf_iff, pixelLegal_iff_fields, Fin.forall_iff, Fin.getElem_fin]

/-- Settles O35: R23 is `Memory.wf`, which the reset state has and every step keeps. -/
theorem pixelBufferKeepsLaneForm : Obligations.PixelBufferKeepsLaneForm := by
  refine ⟨(wf_iff_fields _).1 wf_reset, fun s t hs h => ?_⟩
  exact (wf_iff_fields _).1 ((stepEffect_of_step h).keeps_wf ((wf_iff_fields _).2 hs))

/-! ## The transfers of a reset -/

/-- Settles O6: `afterTransfer` passes a fault or a refusal on and ends the sequence after a next state. -/
theorem stepRunsDecodedTransfer : Obligations.StepRunsDecodedTransfer := by
  intro s x rest i hs hd
  rw [step_transfer_decoded hs hd]
  refine ⟨fun u hu => ?_, fun f hf => ?_, fun r hr => ?_⟩
  · rw [hu, afterTransfer, endReset]
  · rw [hf, afterTransfer]
  · rw [hr, afterTransfer]

/-- Every transaction takes a write. -/
theorem writesOfBytes_pos (bytes : List Byte) : 0 < writesOfBytes bytes := by
  unfold writesOfBytes
  split <;> decide

/-- A display write takes two (R78). -/
theorem writesOfBytes_display {bytes : List Byte} (h : bytes.head? = some 0x80#8) : writesOfBytes bytes = 2 :=
  if_pos h

/-- Settles O42: the failing write is within the transfer's one or two, so nothing of it is sent and the fault it raises
ends the sequence. -/
theorem failedTransferEndsReset : Obligations.FailedTransferEndsReset := by
  intro s x more k rest hs hx hc ha hk
  obtain ⟨i, hd, hw⟩ := legal_decodes hx
  have hlt : k < writesOfBytes x.bytes := by
    rcases hk with rfl | ⟨rfl, hh⟩
    · exact writesOfBytes_pos x.bytes
    · rw [writesOfBytes_display hh]
      exact Nat.one_lt_two
  have hfail : exec i { s with seq := more } = .next ({ s with seq := more }.afterSome 0#64 [] rest) := by
    refine (exec_transfer_next_iff (s := { s with seq := more }) hd (legal_not_read hw) hc).2
      (.inr ⟨k, rest, by simpa [writesOf] using hlt, ha, ?_⟩)
    rw [sentBy, if_pos hlt]
  have hfault : ({ s with seq := more }.afterSome 0#64 [] rest).faultCause ≠ 0#8 := by
    rw [State.afterSome, busFailure_faultCause]
    decide
  rw [step_transfer_decoded hs hd, hfail, afterTransfer, endReset_faulted hfault]
  simp [State.afterSome, busFailure, raise, Cause.code]

end Sys2Proof.Machine
end

section
/-! PROOFS. The decoder and the encoder: which request words decode, and as what, said once (30_encoding.md rules R43 to
R47); the round trips; the opcode map; the illegal words. -/

namespace Sys2Proof

/-! ## Which request words decode, and as what -/

/-- `w` has this OPC and every reserved bit of the format is 0 (R43, R44). -/
structure HasForm (w : RequestWord) (opc : Byte) (f : Format) : Prop where
  opcode   : opcField w = opc
  reserved : w &&& f.reserved = 0#64

/-- The row of R46 by which `w` decodes, with the operands of R45. -/
inductive DecodesAs (w : RequestWord) : Instr → Prop
  | setPixel (h : HasForm w 0x01#8 .px) : DecodesAs w (.setPixel (xField w) (yField w) (rField w) (gField w) (bField w))
  | setAll (h : HasForm w 0x02#8 .cl) : DecodesAs w (.setAll (rField w) (gField w) (bField w))
  | clear (h : HasForm w 0x03#8 .n) : DecodesAs w .clear
  | setRotation (h : HasForm w 0x04#8 .rt) : DecodesAs w (.setRotation (degField w))
  | getShape (h : HasForm w 0x05#8 .n) : DecodesAs w .getShape
  | setBrightness (h : HasForm w 0x06#8 .br) : DecodesAs w (.setBrightness (codeField w))
  | showFrame (h : HasForm w 0x07#8 .n) : DecodesAs w .showFrame
  | shutdown (h : HasForm w 0x08#8 .n) : DecodesAs w .shutdown

theorem decodesAs_of_decode {w : RequestWord} {i : Instr} (hd : decode (.request w) = .ok i) : DecodesAs w i := by
  simp only [decode, decodeRequest] at hd
  repeat' split at hd
  case isFalse => cases hd
  all_goals
    obtain ⟨hr, rfl⟩ := checkReserved_ok hd
    constructor
    exact ⟨‹_›, hr⟩

theorem decode_of_decodesAs {w : RequestWord} {i : Instr} (h : DecodesAs w i) : decode (.request w) = .ok i := by
  cases h with
  | setPixel h | setAll h | clear h | setRotation h | getShape h | setBrightness h | showFrame h | shutdown h =>
    simp [decode, decodeRequest, checkReserved, h.opcode, h.reserved]

/-- The decoder of request words: a row's opcode, its reserved bits 0, its operands' fields (R43, R45, R46). -/
theorem decode_request_iff {w : RequestWord} {i : Instr} : decode (.request w) = .ok i ↔ DecodesAs w i :=
  ⟨decodesAs_of_decode, decode_of_decodesAs⟩

theorem decode_rejects_iff {w : RequestWord} :
    (∃ why, decode (.request w) = .error why) ↔ ∀ i, ¬ DecodesAs w i := by
  simp only [← decode_request_iff]
  cases decode (.request w) <;> simp

/-! ## Decoding an encoding -/

theorem hasForm_wordSetPixel (x y r g b : Byte) : HasForm (wordSetPixel x y r g b) 0x01#8 .px :=
  ⟨Option.some.inj (Laws.Opcode.setPixel x y r g b), reserved_wordSetPixel x y r g b⟩

theorem hasForm_wordSetAll (r g b : Byte) : HasForm (wordSetAll r g b) 0x02#8 .cl :=
  ⟨Option.some.inj (Laws.Opcode.setAll r g b), reserved_wordSetAll r g b⟩

theorem hasForm_wordSetRotation (deg : BitVec 16) : HasForm (wordSetRotation deg) 0x04#8 .rt :=
  ⟨Option.some.inj (Laws.Opcode.setRotation deg), reserved_wordSetRotation deg⟩

theorem hasForm_wordSetBrightness (code : Byte) : HasForm (wordSetBrightness code) 0x06#8 .br :=
  ⟨Option.some.inj (Laws.Opcode.setBrightness code), reserved_wordSetBrightness code⟩

theorem decode_wordSetPixel (x y r g b : Byte) :
    decode (.request (wordSetPixel x y r g b)) = .ok (.setPixel x y r g b) := by
  have h := decode_of_decodesAs (.setPixel (hasForm_wordSetPixel x y r g b))
  rwa [xField_wordSetPixel, yField_wordSetPixel, rField_wordSetPixel, gField_wordSetPixel, bField_wordSetPixel] at h

theorem decode_wordSetAll (r g b : Byte) : decode (.request (wordSetAll r g b)) = .ok (.setAll r g b) := by
  have h := decode_of_decodesAs (.setAll (hasForm_wordSetAll r g b))
  rwa [rField_wordSetAll, gField_wordSetAll, bField_wordSetAll] at h

theorem decode_wordSetRotation (deg : BitVec 16) :
    decode (.request (wordSetRotation deg)) = .ok (.setRotation deg) := by
  have h := decode_of_decodesAs (.setRotation (hasForm_wordSetRotation deg))
  rwa [degField_wordSetRotation] at h

theorem decode_wordSetBrightness (code : Byte) :
    decode (.request (wordSetBrightness code)) = .ok (.setBrightness code) := by
  have h := decode_of_decodesAs (.setBrightness (hasForm_wordSetBrightness code))
  rwa [codeField_wordSetBrightness] at h

/-- The first byte of a transaction names its command, which is decoded with the bytes after it (R49, R50). -/
theorem decode_commandBytes (p : Panel) (cmd : Command) (data : List Byte) :
    decode (.transfer p (commandBytes cmd data)) = decodeCommand p data cmd := by
  simp only [decode, decodeTransfer, commandBytes, commandOf_byte]

/-- Settles O1: a request word has its row's form and its operands in their fields; a transaction begins with its
command's byte. -/
theorem decodeInvertsEncode : Obligations.DecodeInvertsEncode := by
  intro i
  cases i with
  | setPixel x y r g b => exact decode_wordSetPixel x y r g b
  | setAll r g b => exact decode_wordSetAll r g b
  | clear => exact decode_of_decodesAs (.clear ⟨rfl, rfl⟩)
  | setRotation deg => exact decode_wordSetRotation deg
  | getShape => exact decode_of_decodesAs (.getShape ⟨rfl, rfl⟩)
  | setBrightness code => exact decode_wordSetBrightness code
  | showFrame => exact decode_of_decodesAs (.showFrame ⟨rfl, rfl⟩)
  | shutdown => exact decode_of_decodesAs (.shutdown ⟨rfl, rfl⟩)
  | cmdSoftReset p data => exact decode_commandBytes p .softReset data
  | cmdGlobalBrightness p data => exact decode_commandBytes p .globalBrightness data
  | cmdComPinCtrl p data => exact decode_commandBytes p .comPinCtrl data
  | cmdRowPinCtrl p data => exact decode_commandBytes p .rowPinCtrl data
  | cmdWriteDisplay p addr frame => exact decode_commandBytes p .writeDisplay (addr :: frame)
  | cmdReadDisplay p data => exact decode_commandBytes p .readDisplay data
  | cmdSystemCtrl p data => exact decode_commandBytes p .systemCtrl data
  | cmdScrollCtrl p data => exact decode_commandBytes p .scrollCtrl data

/-! ## Encoding what was decoded -/

/-- A word of format N is its opcode and zeros (R44). -/
theorem HasForm.word_n_eq {w : RequestWord} {opc : Byte} (h : HasForm w opc .n) : place opc 56 = w := by
  rw [← h.opcode, ← word_n h.reserved]

/-- A word that decodes is the sum of its opcode and its operands in their fields, since its other bits are 0 (R44). -/
theorem encode_of_decodesAs {w : RequestWord} {i : Instr} (h : DecodesAs w i) : encode i = .request w := by
  cases h with
  | setPixel h => rw [encode, wordSetPixel, ← h.opcode, ← word_px h.reserved]
  | setAll h => rw [encode, wordSetAll, ← h.opcode, ← word_cl h.reserved]
  | clear h => rw [encode, wordClear, h.word_n_eq]
  | setRotation h => rw [encode, wordSetRotation, ← h.opcode, ← word_rt h.reserved]
  | getShape h => rw [encode, wordGetShape, h.word_n_eq]
  | setBrightness h => rw [encode, wordSetBrightness, ← h.opcode, ← word_br h.reserved]
  | showFrame h => rw [encode, wordShow, h.word_n_eq]
  | shutdown h => rw [encode, wordShutdown, h.word_n_eq]

theorem encode_of_decodeCommand {p : Panel} {data : List Byte} {cmd : Command} {i : Instr}
    (hd : decodeCommand p data cmd = .ok i) : encode i = .transfer p (commandBytes cmd data) := by
  cases cmd with
  | writeDisplay =>
    cases data with
    | nil => cases hd
    | cons addr frame => cases hd; rfl
  | _ => cases hd; rfl

theorem encode_of_decodeTransfer {p : Panel} {bytes : List Byte} {i : Instr}
    (hd : decode (.transfer p bytes) = .ok i) : encode i = .transfer p bytes := by
  cases bytes with
  | nil => cases hd
  | cons b data =>
    cases hc : commandOf b with
    | none =>
      simp only [decode, decodeTransfer, hc] at hd
      cases hd
    | some cmd =>
      obtain rfl := byte_of_commandOf hc
      exact encode_of_decodeCommand ((decode_commandBytes p cmd data).symm.trans hd)

/-- Settles O2: a word by its fields, a transaction by its command byte and the bytes after it. -/
theorem encodeInvertsDecode : Obligations.EncodeInvertsDecode := by
  intro f i hd
  cases f with
  | request w => exact encode_of_decodesAs (decodesAs_of_decode hd)
  | transfer p bytes => exact encode_of_decodeTransfer hd

/-! ## The opcode map -/

/-- The mask of a row: OPC and the reserved bits of its format (R46). -/
def Format.mask (f : Format) : RequestWord := 0xFF00000000000000#64 ||| f.reserved

/-- The row of an opcode and its format (R46). -/
def Format.row (f : Format) (opc : Byte) : Row := ⟨opc, place opc 56, f.mask⟩

/-- The map of R46, its masks and patterns computed from the formats of R44. -/
theorem opcodeMap_eq : opcodeMap =
    [Format.px.row 0x01#8, Format.cl.row 0x02#8, Format.n.row 0x03#8, Format.rt.row 0x04#8, Format.n.row 0x05#8,
      Format.br.row 0x06#8, Format.n.row 0x07#8, Format.n.row 0x08#8] := by
  decide

/-- Below OPC a mask selects the reserved bits of its format (R46). -/
theorem mask_and_n (f : Format) : f.mask &&& Format.n.reserved = f.reserved := by
  cases f <;> decide

/-- Every mask covers bits [63:56] (R46). -/
theorem mask_getLsbD_opc (f : Format) : ∀ j : Fin 8, f.mask.getLsbD (56 + j.val) = true := by
  cases f <;> decide

theorem opcField_and_mask (w : RequestWord) (f : Format) : opcField (w &&& f.mask) = opcField w := by
  apply BitVec.eq_of_getLsbD_eq
  intro j hj
  simp only [opcField, getLsbD_field _ _ _ _ hj, BitVec.getLsbD_and, mask_getLsbD_opc f ⟨j, hj⟩, Bool.and_true]

theorem opcField_place (opc : Byte) : opcField (place opc 56) = opc := by
  apply BitVec.eq_of_getLsbD_eq
  intro j hj
  rw [opcField, getLsbD_field _ _ _ _ hj, getLsbD_place _ _ _ (by omega)]
  simp

/-- A word that is only an opcode has every bit below it 0. -/
theorem place_and_n (opc : Byte) : place opc 56 &&& Format.n.reserved = 0#64 := by
  ext j hj
  simp only [place, Format.reserved]
  interval_cases j <;> simp

/-- A word has a row's form exactly when it matches the row's pattern under the row's mask (R46). -/
theorem hasForm_iff_mask {w : RequestWord} {opc : Byte} {f : Format} :
    HasForm w opc f ↔ w &&& f.mask = place opc 56 := by
  have hbelow : w &&& f.mask &&& Format.n.reserved = w &&& f.reserved := by rw [BitVec.and_assoc, mask_and_n]
  constructor
  · intro h
    rw [word_n (hbelow.trans h.reserved), opcField_and_mask, h.opcode]
  · intro h
    exact ⟨by rw [← opcField_and_mask w f, h, opcField_place], by rw [← hbelow, h, place_and_n]⟩

theorem row_hits_iff {w : RequestWord} {opc : Byte} {f : Format} : (f.row opc).hits w = true ↔ HasForm w opc f := by
  rw [hasForm_iff_mask, Row.hits, beq_iff_eq, Format.row]

theorem opcField_of_hits {r : Row} {w : RequestWord} (hr : r ∈ opcodeMap) (h : r.hits w = true) :
    opcField w = r.opc := by
  obtain ⟨f, opc, rfl⟩ : ∃ (f : Format) (opc : Byte), f.row opc = r := by
    simp only [opcodeMap_eq, List.mem_cons, List.not_mem_nil, or_false] at hr
    rcases hr with rfl | rfl | rfl | rfl | rfl | rfl | rfl | rfl <;> exact ⟨_, _, rfl⟩
  exact (row_hits_iff.1 h).opcode

/-- The rows' opcodes differ (R46). -/
theorem opcodes_differ : ∀ r ∈ opcodeMap, ∀ q ∈ opcodeMap, r.opc = q.opc → r = q := by
  decide

theorem DecodesAs.hits {w : RequestWord} {i : Instr} (h : DecodesAs w i) : ∃ r ∈ opcodeMap, r.hits w = true := by
  cases h with
  | setPixel h | setAll h | clear h | setRotation h | getShape h | setBrightness h | showFrame h | shutdown h =>
    exact ⟨_, by decide, row_hits_iff.2 h⟩

/-- Settles O3: a row's mask and pattern say that a word has the row's form; the rows' opcodes differ and every mask
covers them. -/
theorem requestsDecodeByOpcodeMap : Obligations.RequestsDecodeByOpcodeMap := by
  intro w
  refine ⟨fun h => decode_of_decodesAs (.setPixel (hasForm_iff_mask.2 h)),
    fun h => decode_of_decodesAs (.setAll (hasForm_iff_mask.2 h)),
    fun h => decode_of_decodesAs (.clear (hasForm_iff_mask.2 h)),
    fun h => decode_of_decodesAs (.setRotation (hasForm_iff_mask.2 h)),
    fun h => decode_of_decodesAs (.getShape (hasForm_iff_mask.2 h)),
    fun h => decode_of_decodesAs (.setBrightness (hasForm_iff_mask.2 h)),
    fun h => decode_of_decodesAs (.showFrame (hasForm_iff_mask.2 h)),
    fun h => decode_of_decodesAs (.shutdown (hasForm_iff_mask.2 h)), fun hnone => ?_, fun r hr q hq hrw hqw => ?_⟩
  · refine decode_rejects_iff.2 fun i h => ?_
    obtain ⟨r, hr, hit⟩ := h.hits
    rw [hnone r hr] at hit
    cases hit
  · exact opcodes_differ r hr q hq ((opcField_of_hits hr hrw).symm.trans (opcField_of_hits hq hqw))

/-! ## The words written out in the test vectors -/

/-- Settles O4: the decoder evaluated on each of the ten. -/
theorem specWordsDecode : Obligations.SpecWordsDecode :=
  ⟨rfl, rfl, rfl, rfl, rfl, rfl, rfl, rfl, rfl, rfl⟩

/-! ## Illegal words -/

/-- A field that lies under a mask is 0 when the masked bits are. -/
theorem extractLsb'_of_and_eq_zero {w m : RequestWord} {lo n : Nat} (h : w &&& m = 0#64)
    (hm : ∀ j < n, m.getLsbD (lo + j) = true) : w.extractLsb' lo n = 0#n := by
  apply BitVec.eq_of_getLsbD_eq
  intro j hj
  simp [hj, getLsbD_of_and_eq_zero h _ (hm j hj)]

/-- Where a format's reserved bits stand: the least significant one, and how many there are (R44). -/
def Format.reservedAt : Format → Nat × Nat
  | .n  => (0, 56)
  | .px => (24, 16)
  | .cl => (24, 32)
  | .rt => (16, 40)
  | .br => (8, 48)

theorem HasForm.reserved_field {w : RequestWord} {opc : Byte} {f : Format} (h : HasForm w opc f) :
    w.extractLsb' f.reservedAt.1 f.reservedAt.2 = 0#f.reservedAt.2 :=
  extractLsb'_of_and_eq_zero h.reserved (by cases f <;> decide)

end Sys2Proof

namespace Sys2Proof.Machine

/-- Settles O7: a word that decodes has an opcode of the map and its reserved bits 0; any other is rejected, and the
rejection is the fault. -/
theorem illegalRequestFaults : Obligations.IllegalRequestFaults := by
  intro s w rest hs hh hc hill
  have hnot : ∀ i, ¬ DecodesAs w i := by
    intro i hi
    cases hi with
    | setPixel h | setAll h | clear h | setRotation h | getShape h | setBrightness h | showFrame h | shutdown h =>
      have hopc : w.extractLsb' 56 8 = _ := h.opcode
      exact absurd h.reserved_field (by simpa [hopc, Format.reservedAt] using hill)
  obtain ⟨why, hd⟩ := decode_rejects_iff.2 hnot
  rw [step_event hs hh, takeEvent, takeRequest_rejected hd, serve_ready (s := { s with host := rest }) hc]
  simp [raise, Cause.code, hs]

end Sys2Proof.Machine
end

section
/-! PROOFS. What a run sends and never sends (30_encoding.md rules R49 to R51), and the response word (R48). -/

namespace Sys2Proof.Machine

/-! ## The first bytes that are sent -/

/-- A transaction begins with the code of the command it decodes to (R49, R50). -/
theorem head_of_decodeTransfer {p : Panel} {bytes : List Byte} {i : Instr}
    (hd : decode (.transfer p bytes) = .ok i) : bytes.head? = some (Laws.Opcode.code i) := by
  have he := encode_of_decodeTransfer hd
  cases i <;> cases he <;> rfl

theorem isRequest_of_decodeTransfer {p : Panel} {bytes : List Byte} {i : Instr}
    (hd : decode (.transfer p bytes) = .ok i) : isRequest i = false := by
  have he := encode_of_decodeTransfer hd
  cases i <;> cases he <;> rfl

/-- A well-formed bus command has one of the seven command bytes that are sent (R49, R51). -/
theorem code_mem_of_wellFormed {c : Config} {i : Instr} (hi : isRequest i = false) (h : i.wellFormed c = true) :
    Laws.Opcode.code i ∈ [0xCC#8, 0x37#8, 0x41#8, 0x42#8, 0x80#8, 0x35#8, 0x20#8] := by
  cases i with
  | cmdReadDisplay p data => exact absurd rfl (legal_not_read h p data)
  | cmdSoftReset | cmdGlobalBrightness | cmdComPinCtrl | cmdRowPinCtrl | cmdWriteDisplay | cmdSystemCtrl
  | cmdScrollCtrl => simp [Laws.Opcode.code]
  | _ => cases hi

theorem head_of_legal {c : Config} {x : Transaction} (h : x.legal c = true) : ∃ b data, x.bytes = b :: data ∧
    b ∈ [0xCC#8, 0x37#8, 0x41#8, 0x42#8, 0x80#8, 0x35#8, 0x20#8] := by
  obtain ⟨i, hd, hw⟩ := legal_decodes h
  obtain ⟨data, hx⟩ := List.head?_eq_some_iff.1 (head_of_decodeTransfer hd)
  exact ⟨_, data, hx, code_mem_of_wellFormed (isRequest_of_decodeTransfer hd) hw⟩

/-- Settles O22: after a step of a run the invariant holds, by which every transaction of TRACE is one of R50. -/
theorem readDisplayIsNeverSent : Obligations.ReadDisplayIsNeverSent :=
  ⟨fun _ _ _ => rfl, fun s t hs ht x hx _ => head_of_legal ((everyStepKeepsInvariant s t hs ht).traceLegal x hx)⟩

/-! ## The response word -/

section
variable (st : Status) (r : BitVec 16)

/-- STATUS stands in [31:24] (R48). -/
theorem response_status : (response st r).extractLsb' 24 8 = st.code := by
  rw [response, BitVec.extractLsb'_append_eq_of_le (by decide)]
  exact BitVec.extractLsb'_append_eq_left

/-- [23:16] is 0 (R48). -/
theorem response_middle : (response st r).extractLsb' 16 8 = 0#8 := by
  rw [response, BitVec.extractLsb'_append_eq_of_le (by decide)]
  exact BitVec.extractLsb'_append_eq_right

/-- The result stands in [15:0] (R48). -/
theorem response_result : (response st r).extractLsb' 0 16 = r :=
  BitVec.extractLsb'_append_eq_right

end

/-- What a request that completes answers (R48): the shape, INVALID_ROTATION, or OK with no result. -/
theorem Effect.resp_of_completed {i : Instr} {s t : State} (h : Effect s i t) (hi : isRequest i = true)
    (hc : t.faultCause = 0#8) :
    (i = .getShape ∧ t.resp = response .ok (shapeResult (shape s.rot))) ∨
    (∃ deg, i = .setRotation deg ∧ rotationOf deg = none ∧ t.resp = response .invalidRotation 0#16) ∨
    (i ≠ .getShape ∧ t.resp = response .ok 0#16) := by
  cases h with
  | raised _ c w => cases c <;> cases hc
  | busFailed => cases hc
  | transferred hb => rw [hi] at hb; cases hb
  | shapeRead => exact .inl ⟨rfl, rfl⟩
  | notRotated hd => exact .inr (.inl ⟨_, rfl, hd, rfl⟩)
  | completed hs => exact .inr (.inr ⟨(by rintro rfl; cases hs), rfl⟩)
  | _ => exact .inr (.inr ⟨nofun, rfl⟩)

/-- Any other angle than the four is invalid (R66). -/
theorem illegalAngle_of_rotationOf {deg : BitVec 16} (h : rotationOf deg = none) :
    deg ∉ [0#16, 90#16, 180#16, 270#16] := by
  unfold rotationOf at h
  split_ifs at h
  simp [*]

/-- The result of GET_SHAPE holds W and H (R48, R62). -/
theorem response_shape (rot : Rotation) :
    ((response .ok (shapeResult (shape rot))).extractLsb' 8 8).toNat = (shape rot).1 ∧
    ((response .ok (shapeResult (shape rot))).extractLsb' 0 8).toNat = (shape rot).2 := by
  cases rot <;> decide

/-- Settles O34: RESP is kept by a fault, and is one of the three answers of a request that completes. -/
theorem responseWordLayout : Obligations.ResponseWordLayout := by
  intro i s t hi h
  have hs := faultCause_of_exec_next h
  have he := effect_of_exec h
  refine ⟨fun hf => ?_, fun hc => ?_⟩
  · exact he.resp_cases.resolve_right fun ⟨_, heq⟩ => hf (heq.trans hs)
  · rcases he.resp_of_completed hi hc with ⟨rfl, hr⟩ | ⟨deg, rfl, hd, hr⟩ | ⟨hne, hr⟩ <;>
      rw [hr, response_middle, response_status]
    · exact ⟨rfl, .inl rfl, fun hne => absurd rfl hne, fun _ => response_shape s.rot⟩
    · exact ⟨rfl, .inr ⟨rfl, deg, rfl, illegalAngle_of_rotationOf hd⟩, fun _ => response_result _ _, nofun⟩
    · exact ⟨rfl, .inl rfl, fun _ => response_result _ _, fun heq => absurd heq hne⟩

end Sys2Proof.Machine
end

section
/-! PROOFS. The assembler's check of the operands (30_encoding.md rules R53, R54). -/

namespace Sys2Proof.Machine.Assembler

theorem fit_bind {α : Type} (n v : Nat) (k : BitVec n → Except AsmError α) :
    (fit n v >>= k) = if v < 2 ^ n then k (BitVec.ofNat n v) else .error .doesNotFit := by
  unfold fit
  split <;> rfl

theorem request_setPixel (x y r g b : Nat) :
    request ['S', 'E', 'T', '_', 'P', 'I', 'X', 'E', 'L'] [x, y, r, g, b] =
      (do return .setPixel (← fit 8 x) (← fit 8 y) (← fit 8 r) (← fit 8 g) (← fit 8 b)) := rfl

theorem request_setAll (r g b : Nat) : request ['S', 'E', 'T', '_', 'A', 'L', 'L'] [r, g, b] =
    (do return .setAll (← fit 8 r) (← fit 8 g) (← fit 8 b)) := rfl

theorem request_setRotation (deg : Nat) :
    request ['S', 'E', 'T', '_', 'R', 'O', 'T', 'A', 'T', 'I', 'O', 'N'] [deg] =
      (do return .setRotation (← fit 16 deg)) := rfl

theorem request_setBrightness (code : Nat) :
    request ['S', 'E', 'T', '_', 'B', 'R', 'I', 'G', 'H', 'T', 'N', 'E', 'S', 'S'] [code] =
      (do return .setBrightness (← fit 8 code)) := rfl

theorem brightnessF_of_code {level : Rat} {code : Byte} (h : brightnessCode level = some code) :
    brightnessF level = .ok (.setBrightness code) := by
  rw [brightnessF, h]

/-- Settles O44: each operand is checked in turn, and the first that does not fit is the refusal. -/
theorem assemblerRefusesUnfitOperands : Obligations.AssemblerRefusesUnfitOperands := by
  refine ⟨fun x y r g b => ?_, fun r g b => ?_, fun deg => ?_, fun code => ?_, fun _ _ => brightnessF_of_code⟩
  · simp only [request_setPixel, fit_bind, ite_and]
    rfl
  · simp only [request_setAll, fit_bind, ite_and]
    rfl
  · rw [request_setRotation, fit_bind]
    rfl
  · rw [request_setBrightness, fit_bind]
    rfl

end Sys2Proof.Machine.Assembler
end

section
/-! PROOFS. The quantizer and the requests that write the pixel buffer (40_quantizer.md rules R55 to R61; the bounds
check of 41_address_mapper.md rule R64). -/

namespace Sys2Proof

/-! ## The words of SET_PIXEL and SET_ALL as fields written side by side -/

/-- Two fields side by side are placed as the upper above the lower (R44). -/
theorem place_append {m n : Nat} (x : BitVec m) (y : BitVec n) (lo : Nat) :
    place (x ++ y) lo = place x (lo + n) ||| place y lo := by
  apply BitVec.eq_of_getLsbD_eq
  intro j hj
  rw [BitVec.getLsbD_or]
  simp only [getLsbD_place _ _ _ hj, BitVec.getLsbD_append]
  by_cases hy : j < lo + n
  · have hx : ¬ lo + n ≤ j := by omega
    by_cases hl : lo ≤ j
    · simp [hx, hl, show j - lo < n by omega]
    · simp [hx, hl]
  · rw [y.getLsbD_of_ge (j - lo) (by omega)]
    simp [show lo ≤ j by omega, show lo + n ≤ j by omega, show ¬ j - lo < n by omega, Nat.sub_add_eq]

theorem place_zero (n lo : Nat) : place 0#n lo = 0#64 := by
  simp [place]

/-- A word fills its 64 bits. -/
theorem place_word (w : RequestWord) : place w 0 = w := by
  simp [place]

theorem wordSetPixel_eq_append (x y r g b : Byte) :
    wordSetPixel x y r g b = 0x01#8 ++ x ++ y ++ 0#16 ++ r ++ g ++ b := by
  rw [← place_word (0x01#8 ++ x ++ y ++ 0#16 ++ r ++ g ++ b)]
  simp only [place_append, place_zero, BitVec.or_zero, wordSetPixel]

theorem wordSetAll_eq_append (r g b : Byte) : wordSetAll r g b = 0x02#8 ++ 0#32 ++ r ++ g ++ b := by
  rw [← place_word (0x02#8 ++ 0#32 ++ r ++ g ++ b)]
  simp only [place_append, place_zero, BitVec.or_zero, wordSetAll]

end Sys2Proof

namespace Sys2Proof.Machine

/-! ## The quantizer -/

/-- Quantize is the division by 4 (R58 (e)). -/
theorem toNat_quantize (c : Byte) : (quantize c).toNat = c.toNat / 4 := by
  simp only [quantize, BitVec.toNat_setWidth, BitVec.toNat_ushiftRight, Nat.shiftRight_eq_div_pow]
  omega

theorem quantize_mono {c d : Byte} (h : c.toNat ≤ d.toNat) : (quantize c).toNat ≤ (quantize d).toNat := by
  simpa only [toNat_quantize] using Nat.div_le_div_right h

/-- The preimages of a code (R58 (c)). -/
theorem quantize_eq_iff (q : BitVec 6) (c : Byte) : quantize c = q ↔
    c.toNat = 4 * q.toNat ∨ c.toNat = 4 * q.toNat + 1 ∨ c.toNat = 4 * q.toNat + 2 ∨ c.toNat = 4 * q.toNat + 3 := by
  rw [← BitVec.toNat_inj, toNat_quantize]
  omega

/-- A code scaled back to a channel is a preimage of itself (R58 (d)). -/
theorem quantize_scale (q : BitVec 6) : quantize (q.setWidth 8 <<< 2) = q := by
  rw [quantize_eq_iff]
  have hq := q.isLt
  simp only [BitVec.toNat_shiftLeft, BitVec.toNat_setWidth, Nat.shiftLeft_eq]
  omega

/-- The upper bits that Quantize cuts off are 0 (R55). -/
theorem quantize_setWidth (c : Byte) : (quantize c).setWidth 32 = (c >>> 2).setWidth 32 := by
  apply BitVec.eq_of_toNat_eq
  simp only [BitVec.toNat_setWidth, toNat_quantize, BitVec.toNat_ushiftRight, Nat.shiftRight_eq_div_pow]

/-- The stored pixel of a color, from its channels (R55, R56). -/
theorem colorPixel_eq (r g b : Byte) : colorPixel r g b =
    ((r >>> 2).setWidth 32 <<< 16) ||| ((g >>> 2).setWidth 32 <<< 8) ||| (b >>> 2).setWidth 32 := by
  simp only [colorPixel, pack, quantize_setWidth]

/-! ## Pack and Unpack -/

/-- The fields of a packed pixel do not overlap, so they add up (R56). -/
theorem toNat_pack (r g b : BitVec 6) : (pack r g b).toNat = r.toNat * 65536 + g.toNat * 256 + b.toNat := by
  have hr := r.isLt
  have hg := g.isLt
  have hb := b.isLt
  have hgb : g.toNat * 256 ||| b.toNat = g.toNat * 256 + b.toNat := by
    rw [Nat.mul_comm]
    exact (Nat.two_pow_add_eq_or_of_lt (i := 8) (by omega) _).symm
  have hrgb : r.toNat * 65536 ||| (g.toNat * 256 + b.toNat) = r.toNat * 65536 + (g.toNat * 256 + b.toNat) := by
    rw [Nat.mul_comm r.toNat]
    exact (Nat.two_pow_add_eq_or_of_lt (i := 16) (by omega) _).symm
  simp (disch := omega) only [pack, BitVec.toNat_or, BitVec.toNat_shiftLeft, BitVec.toNat_setWidth, Nat.shiftLeft_eq,
    Nat.reducePow, Nat.mod_eq_of_lt]
  rw [Nat.or_assoc, hgb, hrgb, Nat.add_assoc]

theorem pack_inj {r g b r' g' b' : BitVec 6} (h : pack r g b = pack r' g' b') : r = r' ∧ g = g' ∧ b = b' := by
  have hn := congrArg BitVec.toNat h
  rw [toNat_pack, toNat_pack] at hn
  simp only [← BitVec.toNat_inj]
  omega

/-- Unpack gives the packed channels back, each in a byte (R58 (f)). -/
theorem unpack_pack (r g b : BitVec 6) : unpack (pack r g b) = (r.setWidth 8, g.setWidth 8, b.setWidth 8) := by
  have hr := r.isLt
  have hg := g.isLt
  have hb := b.isLt
  simp only [unpack, lane, Prod.mk.injEq, ← BitVec.toNat_inj, BitVec.extractLsb'_toNat, BitVec.toNat_setWidth,
    toNat_pack, Nat.shiftRight_eq_div_pow]
  omega

/-- Settles O8: Quantize is a division, Pack a sum of fields that do not overlap, and Unpack reads them back. -/
theorem quantizePackUnpackValues : Obligations.QuantizePackUnpackValues :=
  ⟨toNat_quantize, toNat_pack, fun _ => rfl, unpack_pack⟩

/-- Settles O9: the laws of the division by 4, and that Pack loses nothing. -/
theorem quantizerLaws : Obligations.QuantizerLaws :=
  ⟨fun c => Nat.le_of_lt_succ (quantize c).isLt, by decide, by decide, fun _ _ => quantize_mono, quantize_eq_iff,
    fun c => quantize_scale (quantize c), toNat_quantize, fun _ _ _ _ _ _ => pack_inj, unpack_pack⟩

/-! ## The slot of a coordinate -/

/-- The bounds check in the words of R64. -/
theorem inRange_iff {rot : Rotation} {x y : Nat} : inRange rot x y = true ↔ x < (shape rot).1 ∧ y < (shape rot).2 :=
  decide_eq_true_iff

/-- A coordinate in range has a slot (R63, R64). -/
theorem addr_lt {rot : Rotation} {x y : Nat} (h : inRange rot x y = true) : addr rot x y < 119 := by
  obtain ⟨hx, hy⟩ := inRange_iff.1 h
  cases rot <;> simp only [shape, addr, cols, rows] at * <;> omega

/-! ## The requests -/

section
variable {s : State} (hc : s.faultCause = 0#8)
include hc

theorem exec_setPixel_inRange {x y : Byte} (h : inRange s.rot x.toNat y.toNat = true) (r g b : Byte) :
    exec (.setPixel x y r g b) s =
      .next (respond .ok 0#16 (storePixel (addr s.rot x.toNat y.toNat) (colorPixel r g b) s)) := by
  rw [exec, execSetPixel, serve_ready hc, if_pos h]

theorem exec_setPixel_outOfRange {x y : Byte} (h : ¬ inRange s.rot x.toNat y.toNat = true) (r g b : Byte) :
    exec (.setPixel x y r g b) s = .next (raise .coordRange (wordSetPixel x y r g b) s) := by
  rw [exec, execSetPixel, serve_ready hc, if_neg h]

theorem exec_setAll_ready (r g b : Byte) :
    exec (.setAll r g b) s = .next (respond .ok 0#16 (fillPixels (colorPixel r g b) s)) := by
  rw [exec, execSetAll, serve_ready hc]

end

/-- CLEAR packs the three 0 codes that SET_ALL 0, 0, 0 quantizes to (R61). -/
theorem exec_clear_eq_setAll (s : State) : exec .clear s = exec (.setAll 0#8 0#8 0#8) s := by
  rw [exec, exec, execClear, execSetAll, colorPixel, show quantize 0#8 = 0#6 by decide]

/-- The stored pixel of black is 0. -/
theorem colorPixel_zero : colorPixel 0#8 0#8 0#8 = 0#32 := by
  decide

/-- The response is no part of the pixel buffer. -/
@[simp] theorem loadPixel_respond (st : Status) (r : BitVec 16) (s : State) (a : Nat) :
    loadPixel (respond st r s) a = loadPixel s a := rfl

/-- Settles O12: a coordinate in range has a slot, and only it and RESP are written; any other raises COORD_RANGE. -/
theorem setPixelWritesOneSlotOrFaults : Obligations.SetPixelWritesOneSlotOrFaults := by
  refine ⟨fun x y r g b => ?_, fun s w rest hs hh hc hopc hres => ?_, fun s x y r g b hc hx hy => ?_,
    fun s x y r g b hc hout => ?_⟩
  · rw [encode, wordSetPixel_eq_append]
  · exact illegalRequestFaults s w rest hs hh hc (.inr (.inr (.inl ⟨hopc, hres⟩)))
  · have hin := inRange_iff.2 ⟨hx, hy⟩
    refine ⟨_, exec_setPixel_inRange hc hin r g b, ?_, fun a ha => ?_, rfl, rfl⟩
    · rw [loadPixel_respond, loadPixel_storePixel_same _ (addr_lt hin), colorPixel_eq]
    · rw [loadPixel_respond, loadPixel_storePixel_other _ ha]
  · have hnot : ¬ inRange s.rot x.toNat y.toNat = true := by
      rw [inRange_iff]
      omega
    rw [exec_setPixel_outOfRange hc hnot, wordSetPixel_eq_append]
    rfl

/-- Settles O13: every slot is filled with the color's pixel; ROT and LIFE are not read. -/
theorem setAllFillsEverySlot : Obligations.SetAllFillsEverySlot := by
  refine ⟨fun r g b => ?_, fun s w rest hs hh hc hopc hres => ?_, fun s r g b hc => ?_⟩
  · rw [encode, wordSetAll_eq_append]
  · exact illegalRequestFaults s w rest hs hh hc (.inr (.inr (.inr (.inl ⟨hopc, hres⟩))))
  · refine ⟨_, exec_setAll_ready hc r g b, fun a ha => ?_, rfl, rfl⟩
    rw [loadPixel_respond, loadPixel_fillPixels _ ha, colorPixel_eq]

/-- Settles O14: CLEAR is SET_ALL 0, 0, 0, whose pixel is 0. -/
theorem clearBlanksEverySlot : Obligations.ClearBlanksEverySlot := by
  refine ⟨rfl, fun s w rest hs hh hc hopc hres => ?_, fun s hc => ?_, exec_clear_eq_setAll⟩
  · exact illegalRequestFaults s w rest hs hh hc (.inr (.inr (.inr (.inr (.inl ⟨hopc, hres⟩)))))
  · refine ⟨_, (exec_clear_eq_setAll s).trans (exec_setAll_ready hc 0#8 0#8 0#8), fun a ha => ?_, rfl, rfl⟩
    rw [loadPixel_respond, loadPixel_fillPixels _ ha, colorPixel_zero]

end Sys2Proof.Machine
end

section
/-! PROOFS. The address mapper and the requests on the rotation (41_address_mapper.md rules R62 to R68). -/

namespace Sys2Proof

/-- The word of SET_ROTATION as fields written side by side (R44, R46). -/
theorem wordSetRotation_eq_append (deg : BitVec 16) : wordSetRotation deg = 0x04#8 ++ 0#40 ++ deg := by
  rw [← place_word (0x04#8 ++ 0#40 ++ deg)]
  simp only [place_append, place_zero, BitVec.or_zero, wordSetRotation]

end Sys2Proof

namespace Sys2Proof.Machine

/-! ## The laws of the mapper -/

/-- The inverse gives the coordinate of an address back: 7 · q + r has quotient q and remainder r (R65 (b)). -/
theorem coordOf_addr {rot : Rotation} {x y : Nat} (h : inRange rot x y = true) :
    coordOf rot (addr rot x y) = (x, y) := by
  obtain ⟨hx, hy⟩ := inRange_iff.1 h
  cases rot <;> simp only [shape, addr, coordOf, cols, rows, Prod.mk.injEq] at hx hy ⊢ <;> omega

/-- No two coordinates in range share an address, for the inverse tells them apart (R65 (a)). -/
theorem addr_inj {rot : Rotation} {x y x' y' : Nat} (h : inRange rot x y = true) (h' : inRange rot x' y' = true)
    (heq : addr rot x y = addr rot x' y') : x = x' ∧ y = y' := by
  rw [← Prod.mk.injEq, ← coordOf_addr h, ← coordOf_addr h', heq]

theorem coordOf_inRange (rot : Rotation) {o : Nat} (ho : o < 119) :
    inRange rot (coordOf rot o).1 (coordOf rot o).2 = true := by
  rw [inRange_iff]
  cases rot <;> simp only [shape, coordOf, cols, rows] <;> omega

/-- Every offset is the address of its coordinate (R65 (a), (b)). -/
theorem addr_coordOf (rot : Rotation) {o : Nat} (ho : o < 119) : addr rot (coordOf rot o).1 (coordOf rot o).2 = o := by
  cases rot <;> simp only [addr, coordOf, cols, rows] <;> omega

/-- The rotation by 180 degrees mirrors the offsets (R65 (c)). -/
theorem addr_deg180 {x y : Nat} (hx : x < 17) (hy : y < 7) : addr .deg180 x y = 118 - addr .deg0 x y := by
  simp only [addr, cols, rows]
  omega

/-- The rotation by 90 degrees mirrors the one by 270 (R65 (c)). -/
theorem addr_deg90 {x y : Nat} (hx : x < 7) (hy : y < 17) : addr .deg90 x y = 118 - addr .deg270 x y := by
  simp only [addr, cols, rows]
  omega

/-- Settles O11: `coordOf` is the inverse of `addr` on both sides, which gives (a), (b) and the offset kept by (d); the
mirrors of (c) are linear arithmetic. -/
theorem mapperLaws : Obligations.MapperLaws := by
  refine ⟨fun rot x y x' y' hx hy hx' hy' => addr_inj (inRange_iff.2 ⟨hx, hy⟩) (inRange_iff.2 ⟨hx', hy'⟩),
    fun rot x y hx hy => ?_, fun rot o ho => ?_, fun _ _ => ⟨rfl, rfl, rfl, rfl⟩, fun _ _ => addr_deg180,
    fun _ _ => addr_deg90, fun o ho => ⟨addr_coordOf .deg180 ho, Nat.sub_sub_self (Nat.le_of_lt_succ ho)⟩⟩
  · have h := inRange_iff.2 ⟨hx, hy⟩
    exact ⟨addr_lt h, coordOf_addr h⟩
  · obtain ⟨hx, hy⟩ := inRange_iff.1 (coordOf_inRange rot ho)
    exact ⟨hx, hy, addr_coordOf rot ho⟩

/-- Settles O10: an address in range is below 119, and in range no subtraction of the four functions is cut off. -/
theorem shapesAndAddressFunctions : Obligations.ShapesAndAddressFunctions := by
  refine ⟨rfl, rfl, rfl, rfl, fun rot x y hx hy => ⟨addr_lt (inRange_iff.2 ⟨hx, hy⟩), ?_⟩⟩
  cases rot <;> simp only [shape, addr, cols, rows] at hx hy ⊢ <;> omega

/-! ## The requests -/

/-- An angle that is none of the four names no rotation (R66). -/
theorem rotationOf_eq_none {deg : BitVec 16} (h0 : deg ≠ 0#16) (h90 : deg ≠ 90#16) (h180 : deg ≠ 180#16)
    (h270 : deg ≠ 270#16) : rotationOf deg = none := by
  rw [rotationOf, if_neg h0, if_neg h90, if_neg h180, if_neg h270]

section
variable {s : State} (hc : s.faultCause = 0#8)
include hc

theorem exec_setRotation_legal {deg : BitVec 16} {rot : Rotation} (hd : rotationOf deg = some rot) :
    exec (.setRotation deg) s = .next (respond .ok 0#16 (setRot rot s)) := by
  simp only [exec, execSetRotation, serve_ready hc, hd]

theorem exec_setRotation_invalid {deg : BitVec 16} (hd : rotationOf deg = none) :
    exec (.setRotation deg) s = .next (respond .invalidRotation 0#16 s) := by
  simp only [exec, execSetRotation, serve_ready hc, hd]

theorem exec_getShape_ready : exec .getShape s = .next (respond .ok (shapeResult (shape s.rot)) s) := by
  rw [exec, execGetShape, serve_ready hc]

end

/-- Settles O15: the angle names a rotation or none, and the request writes ROT and RESP or RESP alone. -/
theorem setRotationSelectsOrReports : Obligations.SetRotationSelectsOrReports := by
  refine ⟨fun deg => ?_, fun s w rest hs hh hc hopc hres => ?_, fun s hc => ?_, fun s deg hc h0 h90 h180 h270 => ?_⟩
  · rw [encode, wordSetRotation_eq_append]
  · exact illegalRequestFaults s w rest hs hh hc (by simpa [hopc] using hres)
  · exact ⟨exec_setRotation_legal hc rfl, exec_setRotation_legal hc rfl, exec_setRotation_legal hc rfl,
      exec_setRotation_legal hc rfl⟩
  · exact exec_setRotation_invalid hc (rotationOf_eq_none h0 h90 h180 h270)

/-- Settles O16: the response word of the shape, evaluated under each rotation. -/
theorem getShapeReportsShape : Obligations.GetShapeReportsShape := by
  refine ⟨rfl, fun s w rest hs hh hc hopc hres => ?_, fun s hc => ?_⟩
  · exact illegalRequestFaults s w rest hs hh hc (by simpa [hopc] using hres)
  · rw [exec_getShape_ready hc, respond]
    cases s.rot <;> rfl

end Sys2Proof.Machine
end

section
/-! PROOFS. The panel contexts, the loop of Serialize, and what each byte of a frame holds (42_serializer.md rules R69
to R72, R74). -/

namespace Sys2Proof.Machine

/-! ## The panel contexts -/

theorem panelOf_eq_panel0_iff {c : Config} {i : Fin 119} : panelOf c i = .panel0 ↔ i.val < c.split := by
  simp [panelOf]

theorem panelOf_eq_panel1_iff {c : Config} {i : Fin 119} : panelOf c i = .panel1 ↔ c.split ≤ i.val := by
  simp [panelOf]

theorem mem_panelPixels {c : Config} {p : Panel} {i : Fin 119} : i ∈ panelPixels c p ↔ panelOf c i = p := by
  simp [panelPixels]

/-- Choosing pixels by a property of their offset is choosing offsets. -/
theorem map_val_filter_finRange (q : Nat → Bool) :
    ((List.finRange 119).filter fun i => q i.val).map (fun i => i.val) = (List.Ico 0 119).filter q := by
  rw [List.Ico.zero_bot, ← List.map_coe_finRange_eq_range, List.filter_map]
  rfl

/-- A panel's pixels are the run of count_p offsets from off_p on (R69, R72). -/
theorem panelPixels_offsets {c : Config} (h : c.split < 119) (p : Panel) :
    (panelPixels c p).map (fun i => i.val) = (List.range (countOf c p)).map (fun l => offsetOf c p + l) := by
  rw [← List.range'_eq_map_range]
  cases p with
  | panel0 =>
    simp only [panelPixels, panelOf_eq_panel0_iff]
    rw [map_val_filter_finRange fun n => decide (n < c.split), List.Ico.filter_lt, Nat.min_eq_right h.le]
    rfl
  | panel1 =>
    simp only [panelPixels, panelOf_eq_panel1_iff]
    rw [map_val_filter_finRange fun n => decide (c.split ≤ n), List.Ico.filter_le, Nat.zero_max]
    rfl

theorem counts_add {c : Config} (h : c.split < 119) : countOf c .panel0 + countOf c .panel1 = 119 :=
  Nat.add_sub_cancel' h.le

/-- Settles O23: the lines, offsets, counts and entries by definition, the panels by comparing with SPLIT; the counts
differ because 119 is odd. -/
theorem panelContextsPartitionPixels : Obligations.PanelContextsPartitionPixels := by
  refine ⟨fun _ => ⟨rfl, rfl, rfl, rfl⟩, fun c _ h => ⟨rfl, rfl, rfl, rfl, counts_add h, fun heq => ?_,
    serialize_length c, fun _ => ⟨panelOf_eq_panel0_iff, panelOf_eq_panel1_iff⟩, fun i l => ?_,
    fun _ => ⟨rfl, rfl, rfl⟩, panelPixels_offsets h⟩⟩
  · have hsum := counts_add h
    omega
  · rw [panelOf_eq_panel0_iff, panelOf_eq_panel1_iff]
    omega

/-! ## The loop -/

/-- One round of the loop of R72, at pixel offset `i`. -/
def serializeRound (c : Config) (m : Memory) (fb : List Byte) (i : Nat) : List Byte :=
  let v := (m[i]?).getD 0#32
  let k := 3 * i
  ((fb.set ((c.lut[k + 0]?).getD 0#8).toNat (v.extractLsb' 16 8)).set
    ((c.lut[k + 1]?).getD 0#8).toNat (v.extractLsb' 8 8)).set
    ((c.lut[k + 2]?).getD 0#8).toNat (v.extractLsb' 0 8)

/-- The entry of a lane is in the table. -/
theorem getD_lut (c : Config) (i : Fin 119) (l : Lane) :
    (c.lut[3 * i.val + l.index.val]?).getD 0#8 = lutAt c i l := by
  rw [Vector.getElem?_eq_getElem, Option.getD_some, lutAt]

theorem putPixel_eq_serializeRound (c : Config) (m : Memory) (fb : List Byte) (i : Fin 119) :
    putPixel c m fb i = serializeRound c m fb i.val := by
  have hslot : (m[i.val]?).getD 0#32 = m[i] := by
    rw [Vector.getElem?_eq_getElem i.isLt, Option.getD_some, Fin.getElem_fin]
  simp only [serializeRound, hslot, putPixel, ← getD_lut]
  rfl

/-- Settles O24: a round writes the three lanes of one pixel, and the panel's pixels are its run of offsets. -/
theorem serializeRunsTheLoop : Obligations.SerializeRunsTheLoop := by
  intro c m p _ h
  calc serialize c m p
      = ((panelPixels c p).map fun i => i.val).foldl (serializeRound c m) (zeros c.frameBytes) := by
        simp only [serialize, List.foldl_map, ← putPixel_eq_serializeRound]
    _ = (List.range (countOf c p)).foldl (fun fb l => serializeRound c m fb (offsetOf c p + l))
          (zeros c.frameBytes) := by
        rw [panelPixels_offsets h, List.foldl_map]

/-! ## The bytes of a frame -/

/-- The writes of one pixel into the frame scratch: the place and the lane, in the order of R72. -/
def pixelWrites (c : Config) (m : Memory) (i : Fin 119) : List (Nat × Byte) :=
  [Lane.red, .green, .blue].map fun l => ((lutAt c i l).toNat, lane m[i] l)

/-- The writes of a panel's frame (R72). -/
def frameWrites (c : Config) (m : Memory) (p : Panel) : List (Nat × Byte) := (panelPixels c p).flatMap (pixelWrites c m)

/-- One write into the frame scratch. -/
def putByte (fb : List Byte) (w : Nat × Byte) : List Byte := fb.set w.1 w.2

theorem serialize_eq_foldl_putByte (c : Config) (m : Memory) (p : Panel) :
    serialize c m p = (frameWrites c m p).foldl putByte (zeros c.frameBytes) := by
  rw [frameWrites, List.foldl_flatMap]
  rfl

theorem mem_frameWrites {c : Config} {m : Memory} {p : Panel} {w : Nat × Byte} : w ∈ frameWrites c m p ↔
    ∃ i l, panelOf c i = p ∧ w = ((lutAt c i l).toNat, lane m[i] l) := by
  simp only [frameWrites, pixelWrites, List.mem_flatMap, mem_panelPixels, List.mem_map]
  constructor
  · rintro ⟨i, hi, l, -, rfl⟩
    exact ⟨i, l, hi, rfl⟩
  · rintro ⟨i, l, hi, rfl⟩
    exact ⟨i, hi, l, by cases l <;> simp, rfl⟩

/-- A byte that no write names stays. -/
theorem foldl_putByte_unnamed {ws : List (Nat × Byte)} {k : Nat} (h : ∀ w ∈ ws, w.1 ≠ k) (fb : List Byte) :
    (ws.foldl putByte fb)[k]? = fb[k]? := by
  induction ws generalizing fb with
  | nil => rfl
  | cons w ws ih =>
    obtain ⟨hw, hws⟩ := List.forall_mem_cons.1 h
    rw [List.foldl_cons, ih hws, putByte, List.getElem?_set_ne hw]

/-- A byte that is named holds the value written to it, when every write to it writes that value. -/
theorem foldl_putByte_named {ws : List (Nat × Byte)} {k : Nat} {v : Byte} (hv : ∀ w ∈ ws, w.1 = k → w.2 = v)
    (hk : ∃ w ∈ ws, w.1 = k) {fb : List Byte} (hlt : k < fb.length) : (ws.foldl putByte fb)[k]? = some v := by
  induction ws generalizing fb with
  | nil => simp at hk
  | cons w ws ih =>
    obtain ⟨hw, hws⟩ := List.forall_mem_cons.1 hv
    rw [List.foldl_cons]
    by_cases hmem : ∃ w ∈ ws, w.1 = k
    · exact ih hws hmem (by simpa [putByte] using hlt)
    · have hrest : ∀ w ∈ ws, w.1 ≠ k := fun w hw he => hmem ⟨w, hw, he⟩
      obtain rfl : w.1 = k := by
        obtain ⟨u, hu, he⟩ := hk
        rcases List.mem_cons.1 hu with rfl | hu
        · exact he
        · exact absurd he (hrest u hu)
      rw [foldl_putByte_unnamed hrest, putByte, List.getElem?_set_self hlt, hw rfl]

theorem index_injective : Function.Injective Lane.index
  | .red, .red, _ | .green, .green, _ | .blue, .blue, _ => rfl

/-- The entries of the pixels of one panel differ (R9 (d)). -/
theorem lutAt_inj {c : Config} (hc : c.wellFormed = true) {i j : Fin 119} {l l' : Lane}
    (hp : panelOf c i = panelOf c j) (h : lutAt c i l = lutAt c j l') : i = j ∧ l = l' := by
  obtain ⟨-, -, -, hruns, -⟩ := (Config.wellFormed_iff c).1 hc
  have hside : i.val < c.split ↔ j.val < c.split := by
    rw [← panelOf_eq_panel0_iff, ← panelOf_eq_panel0_iff, hp]
  have hplace := Fin.val_eq_of_eq
    (hruns ⟨3 * i.val + l.index.val, by omega⟩ ⟨3 * j.val + l'.index.val, by omega⟩ (by dsimp only; omega) h)
  dsimp only at hplace
  exact ⟨by omega, index_injective (Fin.ext (by omega))⟩

/-- Every entry is a place in the frame (R9 (c)). -/
theorem lutAt_lt {c : Config} (hc : c.wellFormed = true) (i : Fin 119) (l : Lane) :
    (lutAt c i l).toNat < c.frameBytes := by
  obtain ⟨-, -, hlt, -⟩ := (Config.wellFormed_iff c).1 hc
  exact hlt i l.index

/-- The byte that the table names for a lane of a pixel is that lane (R74 (c)). -/
theorem serialize_named {c : Config} (hc : c.wellFormed = true) (m : Memory) (i : Fin 119) (l : Lane) :
    (serialize c m (panelOf c i))[(lutAt c i l).toNat]? = some (lane m[i] l) := by
  rw [serialize_eq_foldl_putByte]
  refine foldl_putByte_named (fun w hw he => ?_) ⟨_, mem_frameWrites.2 ⟨i, l, rfl, rfl⟩, rfl⟩
    (by simpa using lutAt_lt hc i l)
  obtain ⟨j, l', hp, rfl⟩ := mem_frameWrites.1 hw
  obtain ⟨rfl, rfl⟩ := lutAt_inj hc hp (BitVec.eq_of_toNat_eq he)
  rfl

/-- A byte that no entry of the panel's run names is 0 (R74 (e)). -/
theorem serialize_unnamed {c : Config} (m : Memory) {p : Panel} {k : Nat} (hk : k < c.frameBytes)
    (h : ∀ i l, panelOf c i = p → (lutAt c i l).toNat ≠ k) : (serialize c m p)[k]? = some 0#8 := by
  rw [serialize_eq_foldl_putByte, foldl_putByte_unnamed]
  · simp [hk]
  · intro w hw
    obtain ⟨i, l, hp, rfl⟩ := mem_frameWrites.1 hw
    exact h i l hp

/-- Settles O25: the writes of a panel go to different bytes, one for each lane of its pixels. -/
theorem frameBytesAreTheLanes : Obligations.FrameBytesAreTheLanes := by
  intro c m hc
  refine ⟨serialize_length c m, fun i => ?_, fun p k hk h => serialize_unnamed m hk fun i l hp => h i l.index hp⟩
  exact ⟨serialize_named hc m i .red, serialize_named hc m i .green, serialize_named hc m i .blue⟩

end Sys2Proof.Machine
end

section
/-! PROOFS. SHOW: the two frames it sends, when it faults, what its output depends on, and the source's scenario
(42_serializer.md rules R73, R74). -/

namespace Sys2Proof.Machine

theorem wordShow_eq : wordShow = 0x0700000000000000#64 := by decide

/-! ## What SHOW answers -/

/-- The two transactions of SHOW (R73, R78). -/
theorem showPlan_transactions (s : State) : (showPlan s).map Prod.fst =
    [⟨.panel0, [0x80#8, s.cfg.wdAddr] ++ serialize s.cfg s.pbuf .panel0⟩,
     ⟨.panel1, [0x80#8, s.cfg.wdAddr] ++ serialize s.cfg s.pbuf .panel1⟩] := rfl

/-- Each of the two transactions takes two writes (R78). -/
theorem sentBy_showPlan (s : State) {k : Nat} (hk : k < 4) : sentBy (showPlan s) k =
    if k < 2 then [] else [⟨.panel0, [0x80#8, s.cfg.wdAddr] ++ serialize s.cfg s.pbuf .panel0⟩] := by
  simp only [showPlan, sentBy, show k - 2 < 2 by omega, if_true]
  rfl

section
variable {s : State} (hc : s.faultCause = 0#8)
include hc

theorem exec_show_inactive (hl : s.life ≠ .active) : exec .showFrame s = .next (raise .notActive wordShow s) :=
  (execShow_next_iff hc).2 (.inl ⟨hl, rfl⟩)

theorem exec_show_delivered (hl : s.life = .active) (hd : s.Delivers 4) : exec .showFrame s =
    .next (respond .ok 0#16 (s.afterAll ((showPlan s).map Prod.fst) (s.answers.drop 4))) :=
  (execShow_next_iff hc).2 (.inr ⟨hl, .inl ⟨hd, rfl⟩⟩)

theorem exec_show_failed (hl : s.life = .active) {k : Nat} (hk : k < 4) {rest : List WriteResult}
    (ha : s.answers = List.replicate k .ok ++ .fail :: rest) :
    exec .showFrame s = .next (s.afterSome wordShow (sentBy (showPlan s) k) rest) :=
  (execShow_next_iff hc).2 (.inr ⟨hl, .inr ⟨k, rest, hk, ha, rfl⟩⟩)

end

/-- Settles O17: LIFE is checked, and then both transactions are sent or the first failed write ends it. -/
theorem showSendsTwoFrames : Obligations.ShowSendsTwoFrames := by
  refine ⟨rfl, fun s w rest hs hh hc hopc hres => ?_, fun s hc hl => ?_, fun s hc hl hr => ?_,
    fun s k rest hc hl hk ha => ?_⟩
  · exact illegalRequestFaults s w rest hs hh hc (by simpa [hopc] using hres)
  · rw [exec_show_inactive hc hl, wordShow_eq]
    rfl
  · rw [exec_show_delivered hc hl hr.delivers, showPlan_transactions]
    rfl
  · rw [exec_show_failed hc hl hk ha, sentBy_showPlan s hk, wordShow_eq]
    rfl

/-! ## What SHOW's output depends on -/

/-- Serialize reads SPLIT, LUT and FRAME_BYTES of the configuration (R72). -/
theorem serialize_congr {c c' : Config} (hsplit : c.split = c'.split) (hlut : c.lut = c'.lut)
    (hframe : c.frameBytes = c'.frameBytes) (m : Memory) (p : Panel) : serialize c m p = serialize c' m p := by
  have hpanel : panelOf c = panelOf c' := by
    funext i
    rw [panelOf, panelOf, hsplit]
  have hput : putPixel c m = putPixel c' m := by
    funext fb i
    simp only [putPixel, lutAt, hlut]
  rw [serialize, serialize, panelPixels, panelPixels, hpanel, hput, hframe]

/-- SHOW that ends unfaulted has sent its two transactions (R74 (a)). -/
theorem trace_of_exec_show {s t : State} (h : exec .showFrame s = .next t) (ht : t.faultCause = 0#8) :
    t.trace = s.trace ++ (showPlan s).map Prod.fst := by
  rcases (execShow_next_iff (faultCause_of_exec_next h)).1 h with ⟨-, rfl⟩ | ⟨-, ⟨-, rfl⟩ | ⟨k, rest, -, -, rfl⟩⟩
  · cases ht
  · rfl
  · cases ht

/-- Settles O26: the two transactions are made of the two frames and WD_ADDR. -/
theorem showOutputIgnoresRotation : Obligations.ShowOutputIgnoresRotation := by
  intro s s' t t' hpbuf hsplit hlut hframe haddr h h' ht ht'
  have hplan : showPlan s' = showPlan s := by
    simp only [showPlan, displayTransaction, ← hpbuf, ← haddr, serialize_congr hsplit hlut hframe]
  refine ⟨(showPlan s).map Prod.fst, rfl, trace_of_exec_show h ht, ?_⟩
  rw [← hplan]
  exact trace_of_exec_show h' ht'

/-! ## The source's scenario -/

theorem steps_succ_of_next {s t : State} (h : step s = .next t) (n : Nat) : steps (n + 1) s = steps n t := by
  simp only [steps, h]

/-- Pixel 0 is panel 0's, for SPLIT is not 0 (R9 (a)). -/
theorem panelOf_zero {c : Config} (hc : c.wellFormed = true) : panelOf c 0 = .panel0 := by
  obtain ⟨⟨hpos, -⟩, -⟩ := (Config.wellFormed_iff c).1 hc
  exact panelOf_eq_panel0_iff.2 hpos

/-- The state after a reset with the host's events and the transport's answers listed (R97). -/
def State.started (c : WellFormedConfig) (earlier : List Transaction) (host : List HostEvent)
    (answers : List WriteResult) : State :=
  { State.afterReset c earlier with host := host, answers := answers }

/-- The state after SET_PIXEL 0, 0, 255, 0, 0 from there: the color is in slot 0 (R59). -/
def State.redPixel (c : WellFormedConfig) (earlier : List Transaction) (host : List HostEvent)
    (answers : List WriteResult) : State :=
  respond .ok 0#16 (storePixel 0 (colorPixel 255#8 0#8 0#8) (State.started c earlier host answers))

section
variable (c : WellFormedConfig) (earlier : List Transaction) (rest : List HostEvent) (as : List WriteResult)

theorem redPixel_slot_zero : (State.redPixel c earlier rest as).pbuf[(0 : Fin 119)] = colorPixel 255#8 0#8 0#8 :=
  Vector.getElem_setIfInBounds_self _

theorem step_setPixel_red : step (State.started c earlier (.request 0x0100000000FF0000#64 :: rest) as) =
    .next (State.redPixel c earlier rest as) := by
  have hd : decode (.request 0x0100000000FF0000#64) = .ok (.setPixel 0#8 0#8 255#8 0#8 0#8) := rfl
  rw [stepRunsDecodedRequest _ _ rest _ rfl rfl hd]
  have hin : inRange .deg0 (0#8).toNat (0#8).toNat = true := by decide
  exact exec_setPixel_inRange (s := State.started c earlier rest as) rfl hin 255#8 0#8 0#8

theorem step_show_redPixel (has : as.take 4 = List.replicate 4 .ok) :
    step (State.redPixel c earlier (.request 0x0700000000000000#64 :: rest) as) =
      .next (respond .ok 0#16 ((State.redPixel c earlier rest as).afterAll
        ((showPlan (State.redPixel c earlier rest as)).map Prod.fst) (as.drop 4))) := by
  have hd : decode (.request 0x0700000000000000#64) = .ok .showFrame := rfl
  rw [stepRunsDecodedRequest _ _ rest _ rfl rfl hd]
  exact exec_show_delivered (s := State.redPixel c earlier rest as) rfl rfl (State.Reliable.delivers has)

/-- What panel 0's frame then holds at the places of pixel 0 (R74 (f)). -/
theorem frame_redPixel (l : Lane) :
    (serialize c.config (State.redPixel c earlier rest as).pbuf .panel0)[(lutAt c.config 0 l).toNat]? =
      some (lane (colorPixel 255#8 0#8 0#8) l) := by
  rw [← panelOf_zero c.wellFormed, serialize_named c.wellFormed, redPixel_slot_zero]

end

/-- Settles O27: SET_PIXEL stores the color in slot 0, and SHOW sends its lanes in panel 0's frame. -/
theorem setPixelThenShowScenario : Obligations.SetPixelThenShowScenario := by
  intro c earlier rest as has
  have hsteps := (steps_succ_of_next (step_setPixel_red c earlier (_ :: rest) as) 1).trans
    (steps_succ_of_next (step_show_redPixel c earlier rest as has) 0)
  have hframe := frame_redPixel c earlier rest as
  exact ⟨_, _, _, hsteps, rfl, rfl, rfl, hframe .red, hframe .green, hframe .blue⟩

end Sys2Proof.Machine
end

section
/-! PROOFS. The requests of the frame transmitter: what SET_BRIGHTNESS and SHUTDOWN send, and when they fault
(43_transmitter.md rules R80, R81). -/

namespace Sys2Proof

/-- The word of SET_BRIGHTNESS as fields written side by side (R44, R46). -/
theorem wordSetBrightness_eq_append (code : Byte) : wordSetBrightness code = 0x06#8 ++ 0#48 ++ code := by
  rw [← place_word (0x06#8 ++ 0#48 ++ code)]
  simp only [place_append, place_zero, BitVec.or_zero, wordSetBrightness]

theorem wordShutdown_eq : wordShutdown = 0x0800000000000000#64 := by decide

end Sys2Proof

namespace Sys2Proof.Machine

/-- Of commands, which take one write each, k are complete after k writes (R77). -/
theorem sentBy_commands (ts : List Transaction) (k : Nat) : sentBy (ts.map fun t => (t, 1)) k = ts.take k := by
  induction ts generalizing k with
  | nil => rw [List.take_nil]; rfl
  | cons t ts ih =>
    cases k with
    | zero => rfl
    | succ k => rw [List.map_cons, sentBy, if_neg (by omega), Nat.add_sub_cancel, ih, List.take_succ_cons]

/-! ## SET_BRIGHTNESS -/

/-- The two transactions of SET_BRIGHTNESS (R80, R77). -/
theorem brightnessPlan_transactions (code : Byte) : (brightnessPlan code).map Prod.fst =
    [⟨.panel0, [0x37#8, code]⟩, ⟨.panel1, [0x37#8, code]⟩] := rfl

theorem sentBy_brightnessPlan (code : Byte) {k : Nat} (hk : k < 2) :
    sentBy (brightnessPlan code) k = if k = 0 then [] else [⟨.panel0, [0x37#8, code]⟩] := by
  interval_cases k <;> rfl

section
variable {s : State} (hc : s.faultCause = 0#8) {code : Byte}
include hc

theorem exec_setBrightness_inactive (hl : s.life ≠ .active) :
    exec (.setBrightness code) s = .next (raise .notActive (wordSetBrightness code) s) :=
  (execSetBrightness_next_iff hc).2 (.inl ⟨hl, rfl⟩)

theorem exec_setBrightness_outOfRange (hl : s.life = .active) (hb : 63 < code.toNat) :
    exec (.setBrightness code) s = .next (raise .brightnessRange (wordSetBrightness code) s) :=
  (execSetBrightness_next_iff hc).2 (.inr ⟨hl, .inl ⟨hb, rfl⟩⟩)

theorem exec_setBrightness_delivered (hl : s.life = .active) (hb : code.toNat ≤ 63) (hd : s.Delivers 2) :
    exec (.setBrightness code) s =
      .next (respond .ok 0#16 (s.afterAll ((brightnessPlan code).map Prod.fst) (s.answers.drop 2))) :=
  (execSetBrightness_next_iff hc).2 (.inr ⟨hl, .inr ⟨hb, .inl ⟨hd, rfl⟩⟩⟩)

theorem exec_setBrightness_failed (hl : s.life = .active) (hb : code.toNat ≤ 63) {k : Nat} (hk : k < 2)
    {rest : List WriteResult} (ha : s.answers = List.replicate k .ok ++ .fail :: rest) :
    exec (.setBrightness code) s =
      .next (s.afterSome (wordSetBrightness code) (sentBy (brightnessPlan code) k) rest) :=
  (execSetBrightness_next_iff hc).2 (.inr ⟨hl, .inr ⟨hb, .inr ⟨k, rest, hk, ha, rfl⟩⟩⟩)

end

/-- Settles O18: LIFE is checked, then the code, and then both transactions are sent or the first failed write ends it. -/
theorem setBrightnessSendsCode : Obligations.SetBrightnessSendsCode := by
  refine ⟨fun code => ?_, fun s w rest hs hh hc hopc hres => ?_, fun s code hc hl => ?_, fun s code hc hl hb => ?_,
    fun s code hc hl hb hr => ?_, fun s code k rest hc hl hb hk ha => ?_⟩
  · rw [encode, wordSetBrightness_eq_append]
  · exact illegalRequestFaults s w rest hs hh hc (by simpa [hopc] using hres)
  · rw [exec_setBrightness_inactive hc hl, wordSetBrightness_eq_append]
    rfl
  · rw [exec_setBrightness_outOfRange hc hl hb, wordSetBrightness_eq_append]
    rfl
  · rw [exec_setBrightness_delivered hc hl hb hr.delivers, brightnessPlan_transactions]
    rfl
  · rw [exec_setBrightness_failed hc hl hb hk ha, sentBy_brightnessPlan code hk, wordSetBrightness_eq_append]
    rfl

/-! ## SHUTDOWN -/

/-- The six transactions of SHUTDOWN (R81, R77). -/
theorem shutdownSequence_eq (c : Config) : shutdownSequence c =
    [⟨.panel0, 0x41#8 :: c.pComOff⟩, ⟨.panel0, 0x42#8 :: c.pRowOff⟩, ⟨.panel0, 0x35#8 :: c.pSysOff⟩,
     ⟨.panel1, 0x41#8 :: c.pComOff⟩, ⟨.panel1, 0x42#8 :: c.pRowOff⟩, ⟨.panel1, 0x35#8 :: c.pSysOff⟩] := rfl

/-- Each of the six takes one write (R77). -/
theorem shutdownPlan_eq (s : State) : shutdownPlan s = (shutdownSequence s.cfg).map fun t => (t, 1) := rfl

section
variable {s : State} (hc : s.faultCause = 0#8)
include hc

theorem exec_shutdown_inactive (hl : s.life ≠ .active) : exec .shutdown s = .next (raise .notActive wordShutdown s) :=
  (execShutdown_next_iff hc).2 (.inl ⟨hl, rfl⟩)

theorem exec_shutdown_delivered (hl : s.life = .active) (hd : s.Delivers 6) : exec .shutdown s =
    .next (respond .ok 0#16 (setLife .shutdown (s.afterAll (shutdownSequence s.cfg) (s.answers.drop 6)))) :=
  (execShutdown_next_iff hc).2 (.inr ⟨hl, .inl ⟨hd, rfl⟩⟩)

theorem exec_shutdown_failed (hl : s.life = .active) {k : Nat} (hk : k < 6) {rest : List WriteResult}
    (ha : s.answers = List.replicate k .ok ++ .fail :: rest) :
    exec .shutdown s = .next (s.afterSome wordShutdown ((shutdownSequence s.cfg).take k) rest) := by
  rw [← sentBy_commands, ← shutdownPlan_eq]
  exact (execShutdown_next_iff hc).2 (.inr ⟨hl, .inr ⟨k, rest, hk, ha, rfl⟩⟩)

end

/-- Settles O19: LIFE is checked, and then all six transactions are sent and LIFE is written, or the first failed write
ends it. -/
theorem shutdownSendsSixCommands : Obligations.ShutdownSendsSixCommands := by
  refine ⟨rfl, fun s w rest hs hh hc hopc hres => ?_, fun s hc hl => ?_, fun s hc hl hr => ?_,
    fun s k rest hc hl hk ha => ?_⟩
  · exact illegalRequestFaults s w rest hs hh hc (by simpa [hopc] using hres)
  · rw [exec_shutdown_inactive hc hl, wordShutdown_eq]
    rfl
  · rw [exec_shutdown_delivered hc hl hr.delivers, shutdownSequence_eq]
    rfl
  · rw [exec_shutdown_failed hc hl hk ha, shutdownSequence_eq, wordShutdown_eq]
    rfl

end Sys2Proof.Machine
end

section
/-! PROOFS. The bus commands: one transaction each, or the fault of the write that failed (43_transmitter.md rules R76 to
R78). -/

namespace Sys2Proof.Machine

section
variable {p : Panel} {bytes : List Byte} {i : Instr} {s : State} (hd : decode (.transfer p bytes) = .ok i)
  (hr : ∀ q data, i ≠ .cmdReadDisplay q data) (hc : s.faultCause = 0#8)
include hd hr hc

theorem exec_transfer_delivered (h : s.Delivers (writesOfBytes bytes)) :
    exec i s = .next (s.afterAll [⟨p, bytes⟩] (s.answers.drop (writesOfBytes bytes))) :=
  (exec_transfer_next_iff hd hr hc).2 (.inl ⟨h, rfl⟩)

theorem exec_transfer_failed {k : Nat} (hk : k < writesOfBytes bytes) {rest : List WriteResult}
    (ha : s.answers = List.replicate k .ok ++ .fail :: rest) : exec i s = .next (s.afterSome 0#64 [] rest) :=
  (exec_transfer_next_iff hd hr hc).2 (.inr ⟨k, rest, hk, ha, by rw [sentBy, if_pos hk]⟩)

end

/-- One transaction sent leaves its entry in TRACE and its line deasserted (R76). -/
theorem afterAll_singleton (s : State) (p : Panel) (bytes : List Byte) (answers : List WriteResult) :
    s.afterAll [⟨p, bytes⟩] answers =
      { s with trace := s.trace ++ [⟨p, bytes⟩], cs := s.cs.drive false p, answers := answers } := rfl

/-- A bus failure before anything was sent leaves the fault and the lines drawn (R87). -/
theorem afterSome_nil (s : State) (w : RequestWord) (answers : List WriteResult) :
    s.afterSome w [] answers = { s with
      faultCause := 0x05#8, faultReq := w, seq := [], answers := answers,
      cs := ⟨Config.freeLine s.draws, Config.freeLine (s.draws + 1)⟩, draws := s.draws + 2 } := by
  rw [State.afterSome, List.append_nil]
  rfl

/-- A command of the general path takes one write (R77). -/
theorem writesOfBytes_command {b : Byte} (data : List Byte) (h : b ≠ 0x80#8) : writesOfBytes (b :: data) = 1 :=
  if_neg (by simpa [Command.byte] using h)

/-- Settles O20: each of the six is decoded from its command byte and its data, which is one write. -/
theorem commandTransfersSendOneTransaction : Obligations.CommandTransfersSendOneTransaction := by
  intro s p data hc ⟨i, b⟩ hib
  obtain ⟨hd, hr, hb⟩ : decode (.transfer p (b :: data)) = .ok i ∧ (∀ q d, i ≠ .cmdReadDisplay q d) ∧ b ≠ 0x80#8 := by
    simp only [List.mem_cons, List.not_mem_nil, or_false, Prod.mk.injEq] at hib
    rcases hib with ⟨rfl, rfl⟩ | ⟨rfl, rfl⟩ | ⟨rfl, rfl⟩ | ⟨rfl, rfl⟩ | ⟨rfl, rfl⟩ | ⟨rfl, rfl⟩ <;>
      exact ⟨rfl, nofun, by decide⟩
  have hn := writesOfBytes_command data hb
  refine ⟨fun hrel => ?_, fun rest ha => ?_⟩
  · rw [exec_transfer_delivered hd hr hc (hn ▸ hrel.delivers), afterAll_singleton, hn]
    cases p <;> rfl
  · rw [exec_transfer_failed hd hr hc (k := 0) (writesOfBytes_pos _) ha, afterSome_nil]

/-- Settles O21: a display write is decoded from its header and its frame, which are two writes. -/
theorem displayWriteSendsOneTransaction : Obligations.DisplayWriteSendsOneTransaction := by
  intro s p a frame hc
  have hd : decode (.transfer p (0x80#8 :: a :: frame)) = .ok (.cmdWriteDisplay p a frame) := rfl
  have hn : writesOfBytes (0x80#8 :: a :: frame) = 2 := writesOfBytes_display rfl
  refine ⟨fun hrel => ?_, fun k rest hk ha => ?_⟩
  · rw [exec_transfer_delivered hd nofun hc (hn ▸ hrel.delivers), afterAll_singleton, hn]
    cases p <;> rfl
  · rw [exec_transfer_failed hd nofun hc (hn ▸ hk) ha, afterSome_nil]

end Sys2Proof.Machine
end

section
/-! PROOFS. The host's brightness conversion: the rule's value exists, is the nearest integer and is what the assembler
computes (43_transmitter.md rule R79). -/

namespace Sys2Proof.Machine

/-! ## Rounding a half to the even integer -/

/-- Every nonnegative number rounds to its floor or to the integer above it, by the fraction and then by parity. -/
theorem exists_roundsHalfEven {v : ℝ} (hv : 0 ≤ v) : ∃ n, RoundsHalfEven v n := by
  have hlo := Nat.floor_le hv
  have hhi := Nat.lt_floor_add_one v
  have below : |v - ⌊v⌋₊| = v - ⌊v⌋₊ := abs_of_nonneg (by linarith)
  have above : |v - (⌊v⌋₊ + 1 : ℕ)| = ⌊v⌋₊ + 1 - v := by
    push_cast
    rw [abs_sub_comm]
    exact abs_of_nonneg (by linarith)
  rcases lt_trichotomy (v - ⌊v⌋₊) (1 / 2) with h | h | h
  · exact ⟨⌊v⌋₊, below.le.trans h.le, fun he => absurd (below ▸ he) h.ne⟩
  · rcases Nat.mod_two_eq_zero_or_one ⌊v⌋₊ with heven | hodd
    · exact ⟨⌊v⌋₊, below.le.trans h.le, fun _ => heven⟩
    · exact ⟨⌊v⌋₊ + 1, above.le.trans (by linarith), fun _ => by omega⟩
  · exact ⟨⌊v⌋₊ + 1, above.le.trans (by linarith), fun he => by rw [above] at he; linarith⟩

section
variable {v : ℝ} {n : ℕ} (h : RoundsHalfEven v n)
include h

theorem RoundsHalfEven.le_of_le {m : ℕ} (hv : v ≤ m) : n ≤ m := by
  have hlt : (n : ℝ) < m + 1 := by linarith [(abs_le.1 h.1).1]
  exact Nat.lt_succ_iff.1 (by exact_mod_cast hlt)

/-- No integer is nearer, since every other integer is at least 1 away from n. -/
theorem RoundsHalfEven.nearest (m : ℤ) : |v - n| ≤ |v - m| := by
  rcases eq_or_ne m n with rfl | hne
  · rfl
  · have hdist : (1 : ℝ) ≤ |(m : ℝ) - n| := by exact_mod_cast Int.one_le_abs (sub_ne_zero.2 hne)
    have htri := abs_sub_le (m : ℝ) v n
    rw [abs_sub_comm (m : ℝ) v] at htri
    linarith [h.1]

/-- Halfway between two integers, both are a half away, so n is even. -/
theorem RoundsHalfEven.even_of_halfway {m : ℤ} (hv : v = m + 1 / 2) : n % 2 = 0 := by
  refine h.2 (le_antisymm h.1 ?_)
  subst hv
  rcases le_or_gt (n : ℤ) m with hle | hlt
  · have hle : (n : ℝ) ≤ m := by exact_mod_cast hle
    exact le_abs.2 (.inl (by linarith))
  · have hlt : (m : ℝ) + 1 ≤ n := by exact_mod_cast hlt
    exact le_abs.2 (.inr (by linarith))

end

/-- The evaluated division rounds the quotient. -/
theorem roundsHalfEven_divHalfEven (a : ℕ) {b : ℕ} (hb : 0 < b) : RoundsHalfEven (a / b) (divHalfEven a b) := by
  obtain ⟨hlo, hhi, htie⟩ := divHalfEven_near a hb
  generalize divHalfEven a b = q at *
  have hb : (0 : ℝ) < b := by exact_mod_cast hb
  have hlo : 2 * (a : ℝ) ≤ 2 * (q * b) + b := by exact_mod_cast hlo
  have hhi : 2 * ((q : ℝ) * b) ≤ 2 * a + b := by exact_mod_cast hhi
  have hle : (a : ℝ) / b ≤ q + 1 / 2 := (div_le_iff₀ hb).2 (by linarith)
  have hge : (q : ℝ) - 1 / 2 ≤ a / b := (le_div_iff₀ hb).2 (by linarith)
  refine ⟨abs_le.2 ⟨by linarith, by linarith⟩, fun he => htie ?_⟩
  rcases eq_or_eq_neg_of_abs_eq he with he | he
  · have hup : (a : ℝ) = (q + 1 / 2) * b := (div_eq_iff hb.ne').1 (by linarith)
    have hup : 2 * (a : ℝ) = 2 * (q * b) + b := by linarith
    exact .inl (by exact_mod_cast hup)
  · have hdown : (a : ℝ) = (q - 1 / 2) * b := (div_eq_iff hb.ne').1 (by linarith)
    have hdown : 2 * ((q : ℝ) * b) = 2 * a + b := by linarith
    exact .inr (by exact_mod_cast hdown)

/-! ## The code of a level -/

theorem maxBrightness_eq : (maxBrightness : ℝ) = 63 := by norm_num [maxBrightness]

section
variable {level : ℝ} {code : Byte}

theorem IsBrightnessCode.unique {other : Byte} (h : IsBrightnessCode level code) (h' : IsBrightnessCode level other) :
    other = code := by
  obtain ⟨-, -, hr⟩ := h
  obtain ⟨-, -, hr'⟩ := h'
  exact BitVec.eq_of_toNat_eq (roundsHalfEven_unique hr' hr)

/-- A level of at most 1 rounds to at most 63. -/
theorem RoundsHalfEven.le_maxBrightness {n : ℕ} (h : RoundsHalfEven (level * maxBrightness) n) (h1 : level ≤ 1) :
    n ≤ maxBrightness :=
  h.le_of_le (mul_le_of_le_one_left (Nat.cast_nonneg _) h1)

/-- What a level rounds to fits a byte, and is its code. -/
theorem isBrightnessCode_ofNat (h0 : 0 ≤ level) (h1 : level ≤ 1) {n : ℕ}
    (h : RoundsHalfEven (level * maxBrightness) n) : IsBrightnessCode level (BitVec.ofNat 8 n) := by
  have hn : n ≤ 63 := h.le_maxBrightness h1
  refine ⟨h0, h1, ?_⟩
  rwa [BitVec.toNat_ofNat, Nat.mod_eq_of_lt (by omega)]

end

theorem isBrightnessCode_one : IsBrightnessCode 1 63#8 :=
  isBrightnessCode_ofNat zero_le_one le_rfl (by rw [RoundsHalfEven]; norm_num [maxBrightness])

theorem isBrightnessCode_zero : IsBrightnessCode 0 0#8 :=
  isBrightnessCode_ofNat le_rfl zero_le_one (by rw [RoundsHalfEven]; norm_num)

/-! ## The function on rational levels -/

/-- The check of the numerator is the check of the level (R79, I10). -/
theorem brightnessCode_eq (level : ℚ) : brightnessCode level =
    if 0 ≤ level ∧ level ≤ 1 then
      some (BitVec.ofNat 8 (divHalfEven (level.num.toNat * maxBrightness) level.den))
    else none := by
  simp only [brightnessCode, Rat.num_nonneg, Int.toNat_le, Rat.num_le_denom_iff]

/-- The function rounds the level times 63, a quotient of naturals. -/
theorem roundsHalfEven_level {level : ℚ} (h0 : 0 ≤ level) :
    RoundsHalfEven (level * maxBrightness) (divHalfEven (level.num.toNat * maxBrightness) level.den) := by
  have hnum : (level.num.toNat : ℝ) = level.num := by exact_mod_cast Int.toNat_of_nonneg (Rat.num_nonneg.2 h0)
  have hlevel : (level : ℝ) * maxBrightness = (level.num.toNat * maxBrightness : ℕ) / level.den := by
    rw [Nat.cast_mul, hnum, mul_div_right_comm, ← Rat.cast_def]
  rw [hlevel]
  exact roundsHalfEven_divHalfEven _ level.den_pos

/-- On rational levels the function gives the code of the rule (R79; log entry 11). -/
theorem brightnessCode_eq_some_iff {level : ℚ} {code : Byte} :
    brightnessCode level = some code ↔ IsBrightnessCode (level : ℝ) code := by
  rw [brightnessCode_eq]
  split
  next hin =>
    obtain ⟨h0, h1⟩ := hin
    have hcode := isBrightnessCode_ofNat (by exact_mod_cast h0) (by exact_mod_cast h1) (roundsHalfEven_level h0)
    rw [Option.some.injEq]
    exact ⟨fun he => he ▸ hcode, fun h => h.unique hcode⟩
  next hout =>
    refine iff_of_false nofun fun ⟨h0, h1, _⟩ => hout ⟨?_, ?_⟩
    · exact_mod_cast h0
    · exact_mod_cast h1

/-- Settles O46: a level rounds to one integer, which fits a byte, and the laws of rounding are those of its code. -/
theorem everyRealLevelHasOneCode : Obligations.EveryRealLevelHasOneCode := by
  refine ⟨isBrightnessCode_one, isBrightnessCode_zero, fun level h0 h1 => ?_, fun level code h => ?_,
    fun level code => brightnessCode_eq_some_iff⟩
  · obtain ⟨n, hn⟩ := exists_roundsHalfEven (mul_nonneg h0 (Nat.cast_nonneg maxBrightness))
    have hcode := isBrightnessCode_ofNat h0 h1 hn
    exact ⟨_, hcode, fun other => hcode.unique⟩
  · obtain ⟨h0, h1, hr⟩ := h
    have hle := hr.le_maxBrightness h1
    rw [maxBrightness_eq] at hr
    exact ⟨h0, h1, hle, hr.nearest, fun ⟨m, hm⟩ => hr.even_of_halfway hm⟩

/-- Settles O43: the function's value on a level in [0, 1] is a rounding of level × 63, in the real numbers and so in the
rational ones. -/
theorem brightnessCodeRoundsHalfEven : Obligations.BrightnessCodeRoundsHalfEven := by
  refine ⟨?_, ?_, fun level h0 h1 => ?_, fun level hout => ?_⟩
  · rw [brightnessCode_eq_some_iff, Rat.cast_one]
    exact isBrightnessCode_one
  · rw [brightnessCode_eq_some_iff, Rat.cast_zero]
    exact isBrightnessCode_zero
  · have hr := roundsHalfEven_level h0
    have hle := hr.le_maxBrightness (by exact_mod_cast h1)
    have hhalf : (1 / 2 : ℝ) = (1 / 2 : ℚ) := by norm_num
    rw [RoundsHalfEven, maxBrightness_eq, hhalf] at hr
    exact ⟨_, hle, (brightnessCode_eq level).trans (if_pos ⟨h0, h1⟩), by exact_mod_cast hr⟩
  · rw [brightnessCode_eq, if_neg]
    rintro ⟨h0, h1⟩
    rcases hout with h | h <;> linarith

end Sys2Proof.Machine
end

section
/-! PROOFS. Faults of requests (60_exceptions.md rules R83 to R88): fault entry, the way out of the faulted state, the
checks of a request in their order, and a bus failure. -/

namespace Sys2Proof.Machine

/-! ## Fault entry and the faulted state -/

/-- Outside a reset, fault entry writes the two fault registers alone (R85). -/
theorem raise_of_seq_nil {s : State} (hs : s.seq = []) (c : Cause) (w : RequestWord) :
    raise c w s = { s with faultCause := c.code, faultReq := w } := by
  rw [raise, ← hs]

/-- Every cause has a code other than 0, the value of an unfaulted DSB (R21, R83). -/
theorem code_ne_zero (c : Cause) : c.code ≠ 0#8 := by
  cases c <;> decide

/-- A faulted DSB takes no request word from the host (R85). -/
theorem step_request_faulted {s : State} {w : RequestWord} {rest : List HostEvent} (hs : s.seq = [])
    (hh : s.host = .request w :: rest) (hc : s.faultCause ≠ 0#8) : step s = .fault .dsbFaulted := by
  rw [step_event hs hh, takeEvent, takeRequest_faulted (s := { s with host := rest }) hc]

/-- Settles O28: fault entry writes two registers, and a faulted DSB takes neither a request word nor a request. -/
theorem faultEntryStopsRequests : Obligations.FaultEntryStopsRequests :=
  ⟨fun c w _ hs => ⟨raise_of_seq_nil hs c w, code_ne_zero c⟩, fun _ _ _ => step_request_faulted,
    fun _ _ hi => exec_faulted (not_readDisplay_of_isRequest hi)⟩

/-- A faulted DSB goes on with no transfer (log entry 13). -/
theorem step_transfer_faulted_ne_next {s : State} {x : Transaction} {rest : List Transaction} (hs : s.seq = x :: rest)
    (hc : s.faultCause ≠ 0#8) (t : State) : step s ≠ .next t := by
  intro h
  cases hd : decode (.transfer x.panel x.bytes) with
  | error why =>
    rw [step_transfer_rejected hs hd] at h
    cases h
  | ok i =>
    rw [step_transfer_decoded hs hd] at h
    obtain ⟨u, hu, -⟩ := afterTransfer_next h
    exact hc (faultCause_of_exec_next (s := { s with seq := rest }) hu)

/-- Settles O31: of what a step can take, neither a transfer nor a request goes on, so it waits or takes a reset. -/
theorem onlyResetLeavesTheFaultedState : Obligations.OnlyResetLeavesTheFaultedState := by
  intro s t hc h
  cases hs : s.seq with
  | cons x rest => exact absurd h (step_transfer_faulted_ne_next hs hc t)
  | nil =>
    cases hh : s.host with
    | nil =>
      rw [step_idle hs hh] at h
      cases h
      exact .inl rfl
    | cons e rest =>
      cases e with
      | request w =>
        rw [step_request_faulted hs hh hc] at h
        cases h
      | reset =>
        rw [step_event hs hh] at h
        cases h
        exact .inr ⟨rest, rfl, rfl, rfl, rfl, rfl, rfl, rfl⟩

/-! ## Why a request faults -/

/-- The transactions of a sending request with their writes (R73, R80, R81); no other request has any. -/
def sendPlan (s : State) : Instr → List (Transaction × Nat)
  | .setBrightness code => brightnessPlan code
  | .showFrame => showPlan s
  | .shutdown => shutdownPlan s
  | _ => []

/-- Why a request word `w` that `s` takes faults, and the state that is left (R83, R84). -/
inductive RequestFault (s : State) (w : RequestWord) : State → Prop
  /-- The word does not decode (R47). -/
  | illegalRequest {why : Reject} (hd : decode (.request w) = .error why) :
      RequestFault s w (raise .illegalRequest w s)
  /-- A sending request of a driver that is not ACTIVE (R73, R80, R81). -/
  | notActive {i : Instr} (hd : decode (.request w) = .ok i) (hi : sends i = true) (hl : s.life ≠ .active) :
      RequestFault s w (raise .notActive w s)
  /-- SET_PIXEL outside the shape (R59). -/
  | coordRange {x y r g b : Byte} (hd : decode (.request w) = .ok (.setPixel x y r g b))
      (hout : (shape s.rot).1 ≤ x.toNat ∨ (shape s.rot).2 ≤ y.toNat) : RequestFault s w (raise .coordRange w s)
  /-- SET_BRIGHTNESS of a code above 63 (R80). -/
  | brightnessRange {code : Byte} (hd : decode (.request w) = .ok (.setBrightness code)) (hl : s.life = .active)
      (hb : 63 < code.toNat) : RequestFault s w (raise .brightnessRange w s)
  /-- A write of a sending request is answered fail (R76, R87). -/
  | busFailure {i : Instr} (hd : decode (.request w) = .ok i) (hi : sends i = true) (hl : s.life = .active)
      {k : Nat} {more : List WriteResult} (hk : k < writesOf (sendPlan s i))
      (ha : s.answers = List.replicate k .ok ++ .fail :: more) :
      RequestFault s w (s.afterSome w (sentBy (sendPlan s i) k) more)

theorem not_inRange_iff {rot : Rotation} {x y : Nat} :
    ¬ inRange rot x y = true ↔ (shape rot).1 ≤ x ∨ (shape rot).2 ≤ y := by
  rw [inRange_iff]
  omega

/-- What sends and ends in a fault had a write of its own answered fail. -/
theorem Sent.Ends.requestFault {s t : State} {w : RequestWord} {i : Instr} {finish : State → State}
    (hd : decode (.request w) = .ok i) (h : Sent.Ends w (sendPlan s i) finish s t)
    (hfin : ∀ u, (finish u).faultCause = u.faultCause) (hi : sends i = true) (hl : s.life = .active)
    (hc : s.faultCause = 0#8) (hf : t.faultCause ≠ 0#8) : RequestFault s w t := by
  rcases h with ⟨-, rfl⟩ | ⟨k, more, hk, ha, rfl⟩
  · exact absurd ((hfin (s.afterAll _ _)).trans hc) hf
  · exact .busFailure hd hi hl hk ha

/-- The checks of a decoded request, request by request. -/
theorem requestFault_of_exec {s t : State} {w : RequestWord} {i : Instr} (hd : decode (.request w) = .ok i)
    (h : exec i s = .next t) (hf : t.faultCause ≠ 0#8) : RequestFault s w t := by
  have hc := faultCause_of_exec_next h
  have hi := isRequest_of_decode hd
  have hw := encodeInvertsDecode _ _ hd
  cases i with
  | setPixel x y r g b =>
    cases hw
    by_cases hin : inRange s.rot x.toNat y.toNat = true
    · rw [exec_setPixel_inRange hc hin] at h
      cases h
      exact absurd hc hf
    · rw [exec_setPixel_outOfRange hc hin] at h
      cases h
      exact .coordRange hd (not_inRange_iff.1 hin)
  | setAll r g b =>
    rw [exec_setAll_ready hc] at h
    cases h
    exact absurd hc hf
  | clear =>
    rw [exec_clear_eq_setAll, exec_setAll_ready hc] at h
    cases h
    exact absurd hc hf
  | setRotation deg =>
    cases hr : rotationOf deg with
    | some rot =>
      rw [exec_setRotation_legal hc hr] at h
      cases h
      exact absurd hc hf
    | none =>
      rw [exec_setRotation_invalid hc hr] at h
      cases h
      exact absurd hc hf
  | getShape =>
    rw [exec_getShape_ready hc] at h
    cases h
    exact absurd hc hf
  | setBrightness code =>
    cases hw
    rcases (execSetBrightness_next_iff hc).1 h with ⟨hl, rfl⟩ | ⟨hl, ⟨hb, rfl⟩ | ⟨-, h⟩⟩
    · exact .notActive hd rfl hl
    · exact .brightnessRange hd hl hb
    · exact Sent.Ends.requestFault hd h (fun _ => rfl) rfl hl hc hf
  | showFrame =>
    cases hw
    rcases (execShow_next_iff hc).1 h with ⟨hl, rfl⟩ | ⟨hl, h⟩
    · exact .notActive hd rfl hl
    · exact Sent.Ends.requestFault hd h (fun _ => rfl) rfl hl hc hf
  | shutdown =>
    cases hw
    rcases (execShutdown_next_iff hc).1 h with ⟨hl, rfl⟩ | ⟨hl, h⟩
    · exact .notActive hd rfl hl
    · exact Sent.Ends.requestFault hd h (fun _ => rfl) rfl hl hc hf
  | _ => cases hi

/-- A step that takes a request word and ends in a fault. -/
theorem requestFault_of_step {s t : State} {w : RequestWord} {rest : List HostEvent} (hs : s.seq = [])
    (hh : s.host = .request w :: rest) (h : step s = .next t) (hf : t.faultCause ≠ 0#8) :
    RequestFault { s with host := rest } w t := by
  cases hd : decode (.request w) with
  | error why =>
    rw [step_event hs hh, takeEvent, takeRequest_rejected hd] at h
    obtain ⟨-, h⟩ := serve_next h
    cases h
    exact .illegalRequest hd
  | ok i =>
    rw [stepRunsDecodedRequest s w rest i hs hh hd] at h
    exact requestFault_of_exec hd h hf

/-! ## The order of the checks -/

section
variable {s t : State} {w : RequestWord} (h : RequestFault s w t)
include h

theorem RequestFault.faultReq_eq : t.faultReq = w := by cases h <;> rfl

/-- Every fault but a bus failure is precise (R86). -/
theorem RequestFault.precise (hs : s.seq = []) (hf : t.faultCause ≠ 0x05#8) :
    t = { s with faultCause := t.faultCause, faultReq := w } := by
  cases h with
  | busFailure => exact absurd rfl hf
  | _ => exact raise_of_seq_nil hs _ w

/-- The reason of the fault of a word that decodes (R83). -/
theorem RequestFault.reason {i : Instr} (hd : decode (.request w) = .ok i) :
    (t.faultCause = 0x02#8 ∧ ∃ x y r g b, i = .setPixel x y r g b ∧
      ((shape s.rot).1 ≤ x.toNat ∨ (shape s.rot).2 ≤ y.toNat)) ∨
    (t.faultCause = 0x03#8 ∧ sends i = true ∧ s.life ≠ .active) ∨
    (t.faultCause = 0x04#8 ∧ s.life = .active ∧ ∃ code, i = .setBrightness code ∧ 63 < code.toNat) ∨
    (t.faultCause = 0x05#8 ∧ sends i = true ∧ s.life = .active ∧ WriteResult.fail ∈ s.answers) := by
  cases h with
  | illegalRequest hd' => cases hd.symm.trans hd'
  | notActive hd' hi hl =>
    cases hd.symm.trans hd'
    exact .inr (.inl ⟨rfl, hi, hl⟩)
  | coordRange hd' hout =>
    cases hd.symm.trans hd'
    exact .inl ⟨rfl, _, _, _, _, _, rfl, hout⟩
  | brightnessRange hd' hl hb =>
    cases hd.symm.trans hd'
    exact .inr (.inr (.inl ⟨rfl, hl, _, rfl, hb⟩))
  | busFailure hd' hi hl hk ha =>
    cases hd.symm.trans hd'
    exact .inr (.inr (.inr ⟨rfl, hi, hl, by simp [ha]⟩))

end

/-- Settles O30: each check raises its own cause when it is reached, and a fault has no other reason. -/
theorem checksInPriorityOrder : Obligations.ChecksInPriorityOrder := by
  intro s t w rest hs hh hc h
  have hfault := requestFault_of_step hs hh h
  refine ⟨fun hf => (hfault hf).faultReq_eq, fun hf hbus => (hfault hf).precise hs hbus, fun why hd => ?_,
    fun i hd => ?_⟩
  · rw [step_event hs hh, takeEvent, takeRequest_rejected hd, serve_ready (s := { s with host := rest }) hc] at h
    cases h
    rfl
  · rw [stepRunsDecodedRequest s w rest i hs hh hd] at h
    refine ⟨fun hi hl => ?_, ?_, ?_, fun hf => (hfault hf).reason hd⟩
    · obtain ⟨info, he⟩ := exec_sends_inactive (s := { s with host := rest }) hi hc hl
      cases he.symm.trans h
      rfl
    · rintro x y r g b rfl hout
      rw [exec_setPixel_outOfRange (s := { s with host := rest }) hc (not_inRange_iff.2 hout)] at h
      cases h
      rfl
    · rintro code rfl hl hb
      rw [exec_setBrightness_outOfRange (s := { s with host := rest }) hc hl hb] at h
      cases h
      rfl

/-! ## What a bus failure leaves -/

/-- Of transactions of n writes each, k / n are complete after k writes. -/
theorem sentBy_uniform (ts : List Transaction) {n : Nat} (hn : 0 < n) (k : Nat) :
    sentBy (ts.map fun t => (t, n)) k = ts.take (k / n) := by
  induction ts generalizing k with
  | nil => rw [List.take_nil]; rfl
  | cons t ts ih =>
    rw [List.map_cons, sentBy]
    split
    next hk => rw [Nat.div_eq_of_lt hk, List.take_zero]
    next hk => rw [ih, Nat.div_eq_sub_div hn (Nat.le_of_not_lt hk), List.take_succ_cons]

/-- Outside a reset, a bus failure leaves what was sent, the fault, and the lines drawn (R87). -/
theorem afterSome_of_seq_nil {s : State} (hs : s.seq = []) (w : RequestWord) (out : List Transaction)
    (answers : List WriteResult) : s.afterSome w out answers = { s with
      trace := s.trace ++ out, answers := answers, faultCause := 0x05#8, faultReq := w,
      cs := ⟨Config.freeLine s.draws, Config.freeLine (s.draws + 1)⟩, draws := s.draws + 2 } := by
  rw [State.afterSome, busFailure, raise, ← hs, Cause.code]

/-- Settles O29: the only fault with cause 0x05 is a failed write of a sending request, and by the request's plan the
transactions before it were sent. -/
theorem busFailureKeepsWhatWasSent : Obligations.BusFailureKeepsWhatWasSent := by
  intro s t w rest hs hh _ h hbus
  cases requestFault_of_step hs hh h (by rw [hbus]; decide) with
  | illegalRequest | notActive | coordRange | brightnessRange => cases hbus
  | @busFailure i hd hi hl k more hk ha =>
    refine ⟨k, more, _, ha, hl, afterSome_of_seq_nil (s := { s with host := rest }) hs w _ more, ?_⟩
    cases i with
    | showFrame => exact .inl ⟨hd, hk, sentBy_uniform [_, _] Nat.two_pos k⟩
    | setBrightness code => exact .inr (.inl ⟨code, hd, hk, sentBy_commands [_, _] k⟩)
    | shutdown => exact .inr (.inr ⟨hd, hk, sentBy_commands (shutdownSequence s.cfg) k⟩)
    | _ => cases hi

end Sys2Proof.Machine
end

section
/-! PROOFS. A reset: the invariant holds where it ends, and with good answers it sends its transfers to the end
(70_reset_and_hazards.md rules R96, R97). -/

namespace Sys2Proof.Machine

/-! ## The state after a reset -/

/-- The 16 transfers of a machine's reset are legal, for its configuration passed the check of INIT_BRIGHTNESS (R9). -/
theorem resetSequence_legal_of_built (c : WellFormedConfig) :
    ∀ x ∈ resetSequence c.config, x.legal c.config = true := by
  obtain ⟨-, -, -, -, hb⟩ := (Config.wellFormed_iff c.config).1 c.wellFormed
  exact resetSequence_legal (decide_eq_true hb)

theorem State.Inv.afterReset (c : WellFormedConfig) {earlier : List Transaction}
    (he : ∀ x ∈ earlier, x.legal c.config = true) : (State.afterReset c earlier).Inv where
  config := c.wellFormed
  pixels := wf_replicate (by decide)
  causeListed := .inl rfl
  requestClear := fun _ => rfl
  respListed := List.mem_cons_self
  linesIdle := fun _ => rfl
  traceLegal := List.forall_mem_append.2 ⟨he, resetSequence_legal_of_built c⟩
  resetRunning := fun hne => absurd rfl hne
  uninitOnly := nofun

/-- Settles O39: nothing is pending, every register has its reset value, and the reset added legal transactions only. -/
theorem invariantHoldsAfterReset : Obligations.InvariantHoldsAfterReset :=
  ⟨rfl, fun c _ he => State.Inv.afterReset c he⟩

/-! ## Transfers that are delivered -/

/-- The writes that these transactions take (R77, R78). -/
def writesOfTransfers (ts : List Transaction) : Nat := (ts.map fun x => writesOfBytes x.bytes).sum

@[simp] theorem writesOfTransfers_nil : writesOfTransfers [] = 0 := rfl

@[simp] theorem writesOfTransfers_cons (x : Transaction) (ts : List Transaction) :
    writesOfTransfers (x :: ts) = writesOfBytes x.bytes + writesOfTransfers ts := List.sum_cons

theorem writesOfTransfers_append (ts us : List Transaction) :
    writesOfTransfers (ts ++ us) = writesOfTransfers ts + writesOfTransfers us := by
  simp [writesOfTransfers]

/-- Seven commands of one write and the display write of two (R96). -/
theorem writesOfTransfers_panelReset (c : Config) (p : Panel) : writesOfTransfers (panelReset c p) = 9 := rfl

theorem writesOfTransfers_resetSequence (c : Config) : writesOfTransfers (resetSequence c) = 18 := by
  rw [resetSequence, writesOfTransfers_append, writesOfTransfers_panelReset, writesOfTransfers_panelReset]

theorem step_transfer_delivered {s : State} {x : Transaction} {rest : List Transaction} (hs : s.seq = x :: rest)
    (hx : x.legal s.cfg = true) (hc : s.faultCause = 0#8) (hd : s.Delivers (writesOfBytes x.bytes)) :
    step s = .next (endReset ({ s with seq := rest }.afterAll [x] (s.answers.drop (writesOfBytes x.bytes)))) := by
  obtain ⟨i, hi, hw⟩ := legal_decodes hx
  rw [step_transfer_decoded hs hi,
    exec_transfer_delivered (s := { s with seq := rest }) hi (legal_not_read hw) hc hd, afterTransfer]

/-- The state after all pending transfers were sent: LIFE is ACTIVE (R96). -/
def State.afterTransfers (s : State) : State :=
  setLife .active ({ s with seq := [] }.afterAll s.seq (s.answers.drop (writesOfTransfers s.seq)))

theorem step_lastTransfer {s : State} {x : Transaction} (hs : s.seq = [x]) (hx : x.legal s.cfg = true)
    (hc : s.faultCause = 0#8) (hd : s.Delivers (writesOfBytes x.bytes)) : step s = .next s.afterTransfers := by
  have he (as : List WriteResult) : endReset ({ s with seq := [] }.afterAll [x] as) = _ := endReset_last rfl hc
  rw [step_transfer_delivered hs hx hc hd, he]
  simp [State.afterTransfers, State.afterAll, setLife, hs]

/-- Sending the first of several pending transfers and then the others is sending them all. -/
theorem afterTransfers_afterAll {s : State} {x : Transaction} {rest : List Transaction} (hs : s.seq = x :: rest) :
    ({ s with seq := rest }.afterAll [x] (s.answers.drop (writesOfBytes x.bytes))).afterTransfers =
      s.afterTransfers := by
  simp [State.afterTransfers, State.afterAll, setLife, hs, List.drop_drop]

/-- Pending legal transfers are sent one in each step, and the last step ends the reset (R96). -/
theorem steps_transfers {s : State} {ts : List Transaction} (hs : s.seq = ts) (hne : ts ≠ [])
    (hl : ∀ x ∈ ts, x.legal s.cfg = true) (hc : s.faultCause = 0#8) (hd : s.Delivers (writesOfTransfers ts)) :
    steps ts.length s = .next s.afterTransfers := by
  induction ts generalizing s with
  | nil => exact absurd rfl hne
  | cons x rest ih =>
    obtain ⟨hx, hrest⟩ := List.forall_mem_cons.1 hl
    rw [writesOfTransfers_cons] at hd
    have hd1 : s.Delivers (writesOfBytes x.bytes) := hd.mono (Nat.le_add_right _ _)
    cases rest with
    | nil => exact steps_succ_of_next (step_lastTransfer hs hx hc hd1) 0
    | cons y more =>
      have hstep := step_transfer_delivered hs hx hc hd1
      rw [endReset_more (List.cons_ne_nil y more)] at hstep
      rw [List.length_cons, steps_succ_of_next hstep, ← afterTransfers_afterAll hs]
      exact ih rfl (List.cons_ne_nil y more) hrest hc (hd.drop rfl)

/-! ## The reset sequence -/

theorem step_reset {s : State} {rest : List HostEvent} (hs : s.seq = []) (hh : s.host = .reset :: rest) :
    step s = .next (beginReset { s with host := rest }) := step_event hs hh

/-- The state where a reset that began in s ends: the 16 transactions are sent and both lines are deasserted (R97). -/
theorem afterTransfers_beginReset (s : State) : (beginReset s).afterTransfers = { s with
    rot := .deg0, life := .active, pbuf := Vector.replicate 119 0#32, resp := 0#32, faultCause := 0#8,
    faultReq := 0#64, cs := .idle, seq := [], answers := s.answers.drop 18,
    trace := s.trace ++ resetSequence s.cfg } := by
  rw [State.afterTransfers, beginReset_seq, writesOfTransfers_resetSequence, State.afterAll, beginReset_cs,
    foldl_drive_idle]
  rfl

/-- The 17 steps of a reset: one for the event and one for each transfer (log entry 3). -/
theorem steps_reset {s : State} {rest : List HostEvent} (hs : s.seq = []) (hh : s.host = .reset :: rest)
    (hd : s.Delivers 18) : steps 17 s = .next (beginReset { s with host := rest }).afterTransfers := by
  rw [show 17 = (resetSequence s.cfg).length + 1 from rfl, steps_succ_of_next (step_reset hs hh)]
  refine steps_transfers rfl (List.cons_ne_nil _ _) (resetSequence_legal_of_built s.built) rfl ?_
  rw [writesOfTransfers_resetSequence]
  exact hd

/-- Settles O40: the reset takes one step and leaves 16 legal transfers pending, which the good answers deliver; the
statement writes out their bytes. -/
theorem resetRunsItsSequence : Obligations.ResetRunsItsSequence := by
  intro s rest hs hh hr
  rw [steps_reset hs hh hr.delivers, afterTransfers_beginReset]
  simp only [hs]
  rfl

end Sys2Proof.Machine
end
